-- ==== Sys2Proof/Word.lean ====
section
/-!
DEFINITION. The two word types of the block: 32-bit words (operand words, response data, addresses, `BASE`, `LEN`;
00_scope.md R10, `XLEN = AW = 32`) and 8-bit arena bytes (00_scope.md R14). Every value is unsigned (R13).
-/

namespace Sys2Proof

/-- A 32-bit word: a command word, an operand, `d0`, `d1`, an arena address, `BASE`, `LEN` (00_scope.md R10). -/
abbrev Word := BitVec 32

/-- A byte of the arena (00_scope.md R14). -/
abbrev Byte := BitVec 8

end Sys2Proof
end

