-- ==== Sys2Proof/Syntax.lean ====
section
/-!
DEFINITION. The abstract syntax of the block's commands: one constructor for each of the 32 rows of 30_encoding.md R64
(opcode_table.json). Every operand is a full 32-bit word and every value of it is legal (R62, R67). The pseudo-commands
of R73 to R75 are other names for sequences of these and stand in Decode.lean.
-/

namespace Sys2Proof

/-- One decoded command (30_encoding.md R64; operands in the order of R62). -/
inductive Instr where
  /-- CALC_FIELDS, op 0x00 (R144). -/
  | calcFields
  /-- BIND base, len; op 0x01 (R81). -/
  | bind (base len : Word)
  /-- BUILD base, opcode, se, mig, pad, pkey, qpn, ack, psn; op 0x02 (R83). -/
  | build (base opcode se mig pad pkey qpn ack psn : Word)
  /-- VALIDATE base, len; op 0x03 (R136). -/
  | validate (base len : Word)
  /-- IS_IB_PORT port; op 0x04 (R138). -/
  | isIbPort (port : Word)
  /-- HDR_LEN, op 0x05 (R140). -/
  | hdrLen
  /-- PARSE_NEXT, op 0x06 (R142). -/
  | parseNext
  /-- OSI_LAYER, op 0x07 (R146). -/
  | osiLayer
  /-- GET_OPCODE, op 0x10 (R93). -/
  | getOpcode
  /-- GET_SE, op 0x11 (R94). -/
  | getSe
  /-- GET_MIG, op 0x12 (R95). -/
  | getMig
  /-- GET_PAD, op 0x13 (R96). -/
  | getPad
  /-- GET_TVER, op 0x14 (R97). -/
  | getTver
  /-- GET_PKEY, op 0x15 (R98). -/
  | getPkey
  /-- GET_FECN, op 0x16 (R99). -/
  | getFecn
  /-- GET_BECN, op 0x17 (R100). -/
  | getBecn
  /-- GET_QPN, op 0x19 (R101). -/
  | getQpn
  /-- GET_ACK, op 0x1A (R102). -/
  | getAck
  /-- GET_PSN, op 0x1C (R103). -/
  | getPsn
  /-- SET_OPCODE val, op 0x20 (R113). -/
  | setOpcode (val : Word)
  /-- SET_SE val, op 0x21 (R114). -/
  | setSe (val : Word)
  /-- SET_MIG val, op 0x22 (R115). -/
  | setMig (val : Word)
  /-- SET_PAD val, op 0x23 (R116). -/
  | setPad (val : Word)
  /-- SET_TVER val, op 0x24 (R117). -/
  | setTver (val : Word)
  /-- SET_PKEY val, op 0x25 (R118). -/
  | setPkey (val : Word)
  /-- SET_FECN val, op 0x26 (R119). -/
  | setFecn (val : Word)
  /-- SET_BECN val, op 0x27 (R120). -/
  | setBecn (val : Word)
  /-- SET_QPN val, op 0x29 (R121). -/
  | setQpn (val : Word)
  /-- SET_ACK val, op 0x2A (R122). -/
  | setAck (val : Word)
  /-- SET_PSN val, op 0x2C (R123). -/
  | setPsn (val : Word)
  /-- CLR_RESV6A, op 0x38 (R131). -/
  | clrResv6a
  /-- CLR_RESV7, op 0x3B (R132). -/
  | clrResv7
deriving DecidableEq, Repr

end Sys2Proof
end

