-- ==== Sys2Proof/Decode.lean ====
section
/-!
DEFINITION. The decoder of 30_encoding.md R61 to R70, total on every list of words, and after it the encoder written from
the same table (R62, R64), the pseudo-commands (R73 to R75), and the two functions by which the host lays a table row's
bits out as command words.
-/

namespace Sys2Proof

/-- What the words on the command port are (R60, R63, R70). -/
inductive Decoded where
  /-- The words begin with a whole legal command; `rest` follows it. -/
  | command (i : Instr) (rest : List Word)
  /-- The header word is illegal (R68): a command of one word; `rest` follows it. -/
  | illegal (rest : List Word)
  /-- No header word, or not all the words of its command, have been presented: the command "has not started" (R60). -/
  | incomplete
deriving DecidableEq, Repr

/-- R61: the opcode, bits 31..24 of a header word. -/
def opField (w0 : Word) : Nat := w0.toNat / 2 ^ 24

/-- R61: the reserved field, bits 23..0 of a header word. -/
def rsvField (w0 : Word) : Nat := w0.toNat % 2 ^ 24

/-- R62, format F1: one operand word. -/
def formatF1 (mk : Word → Instr) : List Word → Decoded
  | a0 :: rest => .command (mk a0) rest
  | _ => .incomplete

/-- R62, format F2: two operand words. -/
def formatF2 (mk : Word → Word → Instr) : List Word → Decoded
  | a0 :: a1 :: rest => .command (mk a0 a1) rest
  | _ => .incomplete

/-- R62, format F9: the nine operand words of BUILD, in the order base, opcode, se, mig, pad, pkey, qpn, ack, psn. -/
def formatF9 (mk : Word → Word → Word → Word → Word → Word → Word → Word → Word → Instr) : List Word → Decoded
  | a0 :: a1 :: a2 :: a3 :: a4 :: a5 :: a6 :: a7 :: a8 :: rest => .command (mk a0 a1 a2 a3 a4 a5 a6 a7 a8) rest
  | _ => .incomplete

/-- R64: what a legal opcode names, with the words after the header word; R63: an unnamed opcode is a command of one
word. -/
def decodeOp (op : Nat) (ws : List Word) : Decoded :=
  match op with
  | 0x00 => .command .calcFields ws
  | 0x01 => formatF2 .bind ws
  | 0x02 => formatF9 .build ws
  | 0x03 => formatF2 .validate ws
  | 0x04 => formatF1 .isIbPort ws
  | 0x05 => .command .hdrLen ws
  | 0x06 => .command .parseNext ws
  | 0x07 => .command .osiLayer ws
  | 0x10 => .command .getOpcode ws
  | 0x11 => .command .getSe ws
  | 0x12 => .command .getMig ws
  | 0x13 => .command .getPad ws
  | 0x14 => .command .getTver ws
  | 0x15 => .command .getPkey ws
  | 0x16 => .command .getFecn ws
  | 0x17 => .command .getBecn ws
  | 0x19 => .command .getQpn ws
  | 0x1A => .command .getAck ws
  | 0x1C => .command .getPsn ws
  | 0x20 => formatF1 .setOpcode ws
  | 0x21 => formatF1 .setSe ws
  | 0x22 => formatF1 .setMig ws
  | 0x23 => formatF1 .setPad ws
  | 0x24 => formatF1 .setTver ws
  | 0x25 => formatF1 .setPkey ws
  | 0x26 => formatF1 .setFecn ws
  | 0x27 => formatF1 .setBecn ws
  | 0x29 => formatF1 .setQpn ws
  | 0x2A => formatF1 .setAck ws
  | 0x2C => formatF1 .setPsn ws
  | 0x38 => .command .clrResv6a ws
  | 0x3B => .command .clrResv7 ws
  | _ => .illegal ws

/-- R70: decode the words at the front of the command port. -/
def decode : List Word → Decoded
  | [] => .incomplete
  | w0 :: ws => if rsvField w0 = 0 then decodeOp (opField w0) ws else .illegal ws

/-- R64: the opcode of each command. -/
def Instr.opcode : Instr → Nat
  | .calcFields => 0x00
  | .bind _ _ => 0x01
  | .build _ _ _ _ _ _ _ _ _ => 0x02
  | .validate _ _ => 0x03
  | .isIbPort _ => 0x04
  | .hdrLen => 0x05
  | .parseNext => 0x06
  | .osiLayer => 0x07
  | .getOpcode => 0x10
  | .getSe => 0x11
  | .getMig => 0x12
  | .getPad => 0x13
  | .getTver => 0x14
  | .getPkey => 0x15
  | .getFecn => 0x16
  | .getBecn => 0x17
  | .getQpn => 0x19
  | .getAck => 0x1A
  | .getPsn => 0x1C
  | .setOpcode _ => 0x20
  | .setSe _ => 0x21
  | .setMig _ => 0x22
  | .setPad _ => 0x23
  | .setTver _ => 0x24
  | .setPkey _ => 0x25
  | .setFecn _ => 0x26
  | .setBecn _ => 0x27
  | .setQpn _ => 0x29
  | .setAck _ => 0x2A
  | .setPsn _ => 0x2C
  | .clrResv6a => 0x38
  | .clrResv7 => 0x3B

/-- R62: the operand words of each command, in order. -/
def Instr.operands : Instr → List Word
  | .bind base len => [base, len]
  | .build base opcode se mig pad pkey qpn ack psn => [base, opcode, se, mig, pad, pkey, qpn, ack, psn]
  | .validate base len => [base, len]
  | .isIbPort port => [port]
  | .setOpcode val => [val]
  | .setSe val => [val]
  | .setMig val => [val]
  | .setPad val => [val]
  | .setTver val => [val]
  | .setPkey val => [val]
  | .setFecn val => [val]
  | .setBecn val => [val]
  | .setQpn val => [val]
  | .setAck val => [val]
  | .setPsn val => [val]
  | .calcFields => []
  | .hdrLen => []
  | .parseNext => []
  | .osiLayer => []
  | .getOpcode => []
  | .getSe => []
  | .getMig => []
  | .getPad => []
  | .getTver => []
  | .getPkey => []
  | .getFecn => []
  | .getBecn => []
  | .getQpn => []
  | .getAck => []
  | .getPsn => []
  | .clrResv6a => []
  | .clrResv7 => []

/-- R61, R64: the header word, "for every legal command it is `op << 24`". -/
def headerWord (op : Nat) : Word := BitVec.ofNat 32 (op * 2 ^ 24)

/-- R62: the words of a command: the header word, then the operand words. -/
def encode (i : Instr) : List Word := headerWord i.opcode :: i.operands

/-- R64, R71: the mnemonic by which the spec writes each command. -/
def Instr.mnemonic : Instr → String
  | .calcFields => "CALC_FIELDS"
  | .bind _ _ => "BIND"
  | .build _ _ _ _ _ _ _ _ _ => "BUILD"
  | .validate _ _ => "VALIDATE"
  | .isIbPort _ => "IS_IB_PORT"
  | .hdrLen => "HDR_LEN"
  | .parseNext => "PARSE_NEXT"
  | .osiLayer => "OSI_LAYER"
  | .getOpcode => "GET_OPCODE"
  | .getSe => "GET_SE"
  | .getMig => "GET_MIG"
  | .getPad => "GET_PAD"
  | .getTver => "GET_TVER"
  | .getPkey => "GET_PKEY"
  | .getFecn => "GET_FECN"
  | .getBecn => "GET_BECN"
  | .getQpn => "GET_QPN"
  | .getAck => "GET_ACK"
  | .getPsn => "GET_PSN"
  | .setOpcode _ => "SET_OPCODE"
  | .setSe _ => "SET_SE"
  | .setMig _ => "SET_MIG"
  | .setPad _ => "SET_PAD"
  | .setTver _ => "SET_TVER"
  | .setPkey _ => "SET_PKEY"
  | .setFecn _ => "SET_FECN"
  | .setBecn _ => "SET_BECN"
  | .setQpn _ => "SET_QPN"
  | .setAck _ => "SET_ACK"
  | .setPsn _ => "SET_PSN"
  | .clrResv6a => "CLR_RESV6A"
  | .clrResv7 => "CLR_RESV7"

/-- The pseudo-commands: names of the spec for sequences of commands (R73, R74, R75). -/
inductive Pseudo where
  /-- CLR_RESV (R73). -/
  | clrResv
  /-- NOP (R74). -/
  | nop
  /-- SUMMARY (R75). -/
  | summary
deriving DecidableEq, Repr

/-- R73, R74, R75: the commands a pseudo-command expands to, in order. -/
def expandPseudo : Pseudo → List Instr
  | .clrResv => [.clrResv6a, .clrResv7]
  | .nop => [.calcFields]
  | .summary => [.getOpcode, .getQpn, .getPsn]

/-- The first `k` words of `v`, its lowest 32 bits first: word `k` of a table row is bits `32k + 31 .. 32k`. -/
def wordsOf : Nat → Nat → List Word
  | 0, _ => []
  | k + 1, v => BitVec.ofNat 32 v :: wordsOf k (v / 2 ^ 32)

/-- A table row's `nbits` bits `w` as the ten words of the longest command (R62), every bit above `nbits` being 0. -/
def tableWords (nbits w : Nat) : List Word := wordsOf 10 (w % 2 ^ nbits)

/-- The command the decoder reads from a table row's bits; none where it refuses. -/
def decodeTableWord (nbits w : Nat) : Option Instr :=
  match decode (tableWords nbits w) with
  | .command i _ => some i
  | .illegal _ => none
  | .incomplete => none

/-- The words that the command at the front of `ws` takes up (R63): all of them where no whole command stands there. -/
def firstCommandWords (ws : List Word) : List Word :=
  match decode ws with
  | .command _ rest => ws.take (ws.length - rest.length)
  | .illegal rest => ws.take (ws.length - rest.length)
  | .incomplete => ws

end Sys2Proof
end

