-- ==== Sys2Proof/Config.lean ====
section
/-!
DEFINITION. What the spec leaves open: the two parameters "which the model takes as arguments" (00_scope.md R11) as one
record, and the free values nothing in Lean can evaluate (93_implementation_defined.md U3, U4, U6).
-/

namespace Sys2Proof

/-- The parameters of 00_scope.md R11, fixed for a run: a state carries them and no step writes them (DESIGN CHOICE, log
entries 2 and 3: safe, since a statement over every state holds for every value of them). -/
structure Config where
  /-- `ARENA_SIZE`: how many bytes the host's arena has, `0 <= ARENA_SIZE <= 2^32`. -/
  arenaSize : Fin (2 ^ 32 + 1)
  /-- `OSI_TRANSPORT`: the code `OSI_LAYER` returns for "TransportLayer". -/
  osiTransport : Word
deriving DecidableEq, Repr

/-- The arena size of the machine after reset: a free value (93 U6; log entry 2, DESIGN CHOICE, safe). -/
opaque Config.freeArenaSize : Fin (2 ^ 32 + 1)

/-- The code of "TransportLayer" of the machine after reset: a free value (93 U4; log entry 3, DESIGN CHOICE, safe). -/
opaque Config.freeOsiTransport : Word

/-- What the arena holds at address `a` while neither the block nor the host has written there in this run: a free value,
"an input of the run, universally quantified. Not zero." (93 U3; log entry 1, DESIGN CHOICE, safe). -/
opaque Config.freeArenaByte (a : Nat) : Byte

end Sys2Proof
end

