-- ==== Sys2Proof/Machine/State.lean ====
section
/-!
DEFINITION. The state of the machine as plain data: the spec's triple `(MEM, BASE, LEN)` (10_state.md R20), the parameters
it is run with (00_scope.md R11), and, because the host drives one step at a time, what stands on the two ports
(30_encoding.md R60) and what the host does next (20_memory.md R50; 70_reset_and_hazards.md R170, R176).
-/

namespace Sys2Proof.Machine

/-- The bytes of the arena that something has written, as (address, byte) pairs in rising order of address
(10_state.md R32). An address that is not listed reads as `Config.freeArenaByte` of it (Machine/Memory.lean; log entry 1). -/
abbrev Memory := List Host.Cell

/-- The response status `st` (60_exceptions.md R150). -/
inductive Status where
  /-- 0: the command did what its rule says. -/
  | ok
  /-- 1: a window access or PARSE_NEXT while `LEN < 12` (R152). -/
  | shortWindow
  /-- 2: the header word is not a legal command (R153). -/
  | illegalCmd
  /-- 3: BIND or BUILD was given a region that does not fit the arena (R154). -/
  | badDescriptor
deriving DecidableEq, Repr

/-- A response `(st, f, d0, d1)` (00_scope.md R18); "a field a rule does not mention is 0". -/
structure Response where
  /-- The status, 2 bits on the port (R150). -/
  st : Status := .ok
  /-- The Boolean result, 1 bit on the port (00_scope.md R13). -/
  f : Bool := false
  /-- The first data result. -/
  d0 : Word := 0
  /-- The second data result. -/
  d1 : Word := 0
deriving DecidableEq, Repr

/-- One thing the host does to the block between two commands (00_scope.md R19; 20_memory.md R50). The host's reads of the
arena change nothing (R46) and need no action. -/
inductive HostAction where
  /-- Present the next word on the command port (30_encoding.md R60). -/
  | present (w : Word)
  /-- Write a byte of the arena (20_memory.md R50). -/
  | write (a : Word) (b : Byte)
  /-- Apply reset (70_reset_and_hazards.md R170). -/
  | reset
deriving DecidableEq, Repr

/-- Why the machine stops. The spec's own faults are responses (60_exceptions.md R159) and are none of these. -/
inductive Fault where
  /-- Raised by a command that reads or writes the header window (GET, SET, CLR) in a state whose window reaches outside
  the arena. Safe (log entry 6): the binding invariant 10_state.md R27 excludes these states and every step keeps it. -/
  | windowOutsideArena
  /-- Raised by a host write at an address the arena does not have (10_state.md R32: addresses `0 .. ARENA_SIZE-1`). Safe
  (log entry 7): the spec has no such host action. -/
  | hostWriteOutsideArena
deriving DecidableEq, Repr

/-- Why the model gives a command no meaning. -/
inductive Refusal where
  /-- Raised by an arm of `exec` whose command has no meaning yet, under its mnemonic; safe. No arm raises it. -/
  | notModelled (mnemonic : String)
deriving DecidableEq, Repr

/-- The state of the machine. -/
structure State where
  /-- `MEM`, the host's arena (10_state.md R20, R32). -/
  mem : Memory
  /-- `BASE`, the arena address of window byte 0 (10_state.md R25). -/
  base : Word
  /-- `LEN`, the number of bytes of the bound buffer (10_state.md R25). -/
  len : Word
  /-- The parameters of the run (00_scope.md R11). The model's own field: log entries 2 and 3. -/
  cfg : Config
  /-- The words presented on the command port and not yet consumed, first presented first (30_encoding.md R60). The
  model's own field: log entry 4. -/
  port : List Word
  /-- What the host does next, first action first. The model's own field: log entry 4. -/
  host : List HostAction
  /-- The responses given so far, first given first (00_scope.md R18). The model's own field: log entry 5. -/
  responses : List Response
deriving DecidableEq, Repr

/-- The machine right after reset (10_state.md R33; 70_reset_and_hazards.md R170): `BASE = 0`, `LEN = 0`, every arena byte
unspecified, and the parameters left open. -/
def State.reset : State where
  mem := []
  base := 0
  len := 0
  cfg := { arenaSize := Config.freeArenaSize, osiTransport := Config.freeOsiTransport }
  port := []
  host := []
  responses := []

end Sys2Proof.Machine
end

