-- ==== Sys2Proof/Machine/Operands.lean ====
section
/-!
DEFINITION. The constants of the block (00_scope.md R9), the conversions of widths (R16), and the field table
`FIELD(f) = (off, n, sh, w)` (10_state.md R23) through which every operand of a GET, SET or CLR goes.
-/

namespace Sys2Proof.Machine

/-- `HDR_SIZE`: "Total header occupies exactly 12 bytes" (00_scope.md R9). -/
abbrev hdrSize : Nat := 12

/-- `IB_PORT`: "the IANA-registered RoCEv2 UDP destination port" (00_scope.md R9). -/
abbrev ibPort : Word := 4791

/-- `trunc_w(v)`, the low `w` bits of `v`, zero-extended back to a word (00_scope.md R16). -/
def trunc (w : Nat) (v : Word) : Word := (v.setWidth w).setWidth 32

/-- `2^w - 1`, the ones of a field of width `w` (10_state.md R23). -/
def ones (w : Nat) : Word := BitVec.ofNat 32 (2 ^ w - 1)

/-- The thirteen fields of the header, in the order of their index f (10_state.md R23, 30_encoding.md R66). -/
inductive Field where
  /-- f = 0, OpCode. -/
  | opcode
  /-- f = 1, SolicitedEvent. -/
  | se
  /-- f = 2, MigrationState. -/
  | mig
  /-- f = 3, PadCount. -/
  | pad
  /-- f = 4, TransportHeaderVersion. -/
  | tver
  /-- f = 5, PartitionKey. -/
  | pkey
  /-- f = 6, FECN. -/
  | fecn
  /-- f = 7, BECN. -/
  | becn
  /-- f = 8, Reserved6a. -/
  | resv6a
  /-- f = 9, QueuePairNumber. -/
  | qpn
  /-- f = 10, AckRequest. -/
  | ack
  /-- f = 11, Reserved7. -/
  | resv7
  /-- f = 12, PacketSequenceNumber. -/
  | psn
deriving DecidableEq, Repr

/-- The index f of a field (30_encoding.md R66). -/
def Field.index : Field → Nat
  | .opcode => 0
  | .se => 1
  | .mig => 2
  | .pad => 3
  | .tver => 4
  | .pkey => 5
  | .fecn => 6
  | .becn => 7
  | .resv6a => 8
  | .qpn => 9
  | .ack => 10
  | .resv7 => 11
  | .psn => 12

/-- R23, column "container off": the window offset of the field's container. -/
def Field.off : Field → Nat
  | .opcode => 0
  | .se => 1
  | .mig => 1
  | .pad => 1
  | .tver => 1
  | .pkey => 2
  | .fecn => 4
  | .becn => 4
  | .resv6a => 4
  | .qpn => 4
  | .ack => 8
  | .resv7 => 8
  | .psn => 8

/-- R23, column "container n": the number of bytes of the container. -/
def Field.size : Field → Nat
  | .opcode => 1
  | .se => 1
  | .mig => 1
  | .pad => 1
  | .tver => 1
  | .pkey => 2
  | .fecn => 4
  | .becn => 4
  | .resv6a => 4
  | .qpn => 4
  | .ack => 4
  | .resv7 => 4
  | .psn => 4

/-- R23, column "shift sh". -/
def Field.shift : Field → Nat
  | .opcode => 0
  | .se => 7
  | .mig => 6
  | .pad => 4
  | .tver => 0
  | .pkey => 0
  | .fecn => 31
  | .becn => 30
  | .resv6a => 24
  | .qpn => 0
  | .ack => 31
  | .resv7 => 24
  | .psn => 0

/-- R23, column "width w". -/
def Field.width : Field → Nat
  | .opcode => 8
  | .se => 1
  | .mig => 1
  | .pad => 2
  | .tver => 4
  | .pkey => 16
  | .fecn => 1
  | .becn => 1
  | .resv6a => 6
  | .qpn => 24
  | .ack => 1
  | .resv7 => 7
  | .psn => 24

/-- R26: the two reserved fields, which have no GET and no SET. -/
def Field.reserved : Field → Bool
  | .resv6a => true
  | .resv7 => true
  | .opcode => false
  | .se => false
  | .mig => false
  | .pad => false
  | .tver => false
  | .pkey => false
  | .fecn => false
  | .becn => false
  | .qpn => false
  | .ack => false
  | .psn => false

/-- R23, column "mask in container": `((2^w)-1) << sh`. -/
def Field.mask (f : Field) : Word := ones f.width <<< f.shift

/-- The field in its container's value, right-aligned: `(c >> sh) & (2^w - 1)` (41_get.md R92). -/
def Field.extract (f : Field) (c : Word) : Word := (c >>> f.shift) &&& ones f.width

/-- The container's value with the field replaced: `(c & ~m) | ((trunc_w(val) << sh) & m)` (42_set.md R112). The bits of
`c` above the container's `8n` are 0, so the complement over the whole word and the one within `8n` bits agree. -/
def Field.insert (f : Field) (c val : Word) : Word :=
  (c &&& ~~~ f.mask) ||| ((trunc f.width val <<< f.shift) &&& f.mask)

/-- The 2-bit code of a status on the response port (60_exceptions.md R150). -/
def Status.code : Status → BitVec 2
  | .ok => 0
  | .shortWindow => 1
  | .illegalCmd => 2
  | .badDescriptor => 3

end Sys2Proof.Machine
end

