-- ==== Sys2Proof/Machine/Flags.lean ====
section
/-!
DEFINITION. The block has no status flags (10_state.md R29). What it computes of this kind are the tests a command makes
and the Boolean result `f` of a response; each is here once.
-/

namespace Sys2Proof.Machine

/-- `WINDOW_OK`, the test `LEN >= 12`, unsigned (10_state.md R22). -/
def State.windowOk (s : State) : Bool := decide (hdrSize ≤ s.len.toNat)

/-- The bound check `base + len <= ARENA_SIZE` of BIND and BUILD, "sum taken in unbounded integers, no wrap"
(40_construct.md R81, R83). -/
def State.fits (s : State) (base len : Nat) : Bool := decide (base + len ≤ s.cfg.arenaSize.val)

/-- The result of VALIDATE: `(len >= 12) ? 1 : 0`, unsigned (44_validate_frame.md R136). -/
def validFlag (len : Word) : Bool := decide (hdrSize ≤ len.toNat)

/-- The result of IS_IB_PORT: `(port == 4791) ? 1 : 0`, "all 32 bits compared" (44_validate_frame.md R138). -/
def ibPortFlag (port : Word) : Bool := decide (port = ibPort)

end Sys2Proof.Machine
end

