-- ==== Sys2Proof/Machine/Memory.lean ====
section
/-!
DEFINITION. The arena as plain memory: one byte read and written (20_memory.md R46), and the big-endian containers of 1, 2
and 4 bytes built from them (00_scope.md R14, 20_memory.md R40), so that byte order is decided here once.
-/

namespace Sys2Proof.Machine

/-- The byte listed at address `a`, if one is. -/
def Memory.lookup : Memory → Nat → Option Byte
  | [], _ => none
  | (k, v) :: m, a => if a = k then some v else Memory.lookup m a

/-- `MEM[a]`: the byte last written there, else what the arena held before (20_memory.md R46; log entry 1). -/
def Memory.read (m : Memory) (a : Nat) : Byte := (Memory.lookup m a).getD (Config.freeArenaByte a)

/-- `MEM[a] <- b`: the one entry of address `a` is set, its place in rising order kept. -/
def Memory.write : Memory → Nat → Byte → Memory
  | [], a, b => [(a, b)]
  | (k, v) :: m, a, b =>
    if a < k then (a, b) :: (k, v) :: m
    else if a = k then (a, b) :: m
    else (k, v) :: Memory.write m a b

/-- `MemRead(a, n)` (00_scope.md R14): the `8n`-bit number of the bytes at `a .. a+n-1`, the byte at the lowest address
the most significant, in a word with zeros above its `8n` bits. -/
def Memory.readBytes (m : Memory) (a : Nat) : Nat → Word
  | 0 => 0
  | n + 1 => (Memory.readBytes m a n <<< 8) ||| (Memory.read m (a + n)).setWidth 32

/-- `MemWrite(a, n, v)` (00_scope.md R14): `MEM[a+i] <- v[8*(n-i)-1 : 8*(n-1-i)]` for `i = 0 .. n-1`. -/
def Memory.writeBytes (m : Memory) (a : Nat) : Nat → Word → Memory
  | 0, _ => m
  | n + 1, v => Memory.writeBytes (Memory.write m (a + n) (v.setWidth 8)) a n (v >>> 8)

/-- The `n` bytes at `a .. a+n-1` become 0 ("12 zero-initialized bytes", 40_construct.md R83). -/
def Memory.zero (m : Memory) (a : Nat) : Nat → Memory
  | 0 => m
  | n + 1 => Memory.write (Memory.zero m a n) (a + n) 0

/-- Every address listed in `m` is above `a`, and the addresses rise. -/
def Memory.risingAbove : Nat → Memory → Bool
  | _, [] => true
  | a, (k, _) :: m => decide (a < k) && Memory.risingAbove k m

/-- The canonical form: strictly rising addresses. An unlisted address has no value of its own in the list (what it reads
as is free), so no entry repeats one. -/
def Memory.wf : Memory → Bool
  | [] => true
  | (k, _) :: m => Memory.risingAbove k m

end Sys2Proof.Machine
end

