-- ==== Sys2Proof/Machine/Ops.lean ====
section
/-!
DEFINITION. The named operations every meaning is built from: the updates of the state, the response and the fault response
(00_scope.md R18; the block has no trap, 60_exceptions.md R159), the binding registers, the window access, the three generic
accessors GET, SET and CLR (41_get.md R92, 42_set.md R112, 43_clear_reserved.md R130), and what the host does between two
commands (20_memory.md R50).
-/

namespace Sys2Proof.Machine

/-- Replace the arena. -/
def State.setMem (s : State) (m : Memory) : State := { s with mem := m }

/-- `BASE <- base; LEN <- len`: the one write of the binding registers (10_state.md R25). -/
def State.setBinding (s : State) (base len : Word) : State := { s with base := base, len := len }

/-- Replace the words on the command port. -/
def State.setPort (s : State) (ws : List Word) : State := { s with port := ws }

/-- Replace what the host does next. -/
def State.setHost (s : State) (h : List HostAction) : State := { s with host := h }

/-- `resp(...)`: give one response on the response port (00_scope.md R18, 30_encoding.md R60). -/
def State.respond (s : State) (r : Response) : State := { s with responses := s.responses ++ [r] }

/-- `raise <Fault>`, the spec's one way to take a fault: "change no state, respond with `st` equal to the fault's code and
`f = 0`, `d0 = 0`, `d1 = 0`, and end the command" (00_scope.md R18; 60_exceptions.md R150, R159). -/
def State.raise (s : State) (st : Status) : State := s.respond { st := st }

/-- `H[i]`, an alias of `MEM[BASE + i]` (10_state.md R21). -/
def State.headerByte (s : State) (i : Nat) : Byte := s.mem.read (s.base.toNat + i)

/-- The value of field `f`: its container read big-endian, shifted and masked (41_get.md R92, after the window test). -/
def State.getField (s : State) (f : Field) : Word := f.extract (s.mem.readBytes (s.base.toNat + f.off) f.size)

/-- The state change of `SET(f, val)` without its test and its response (42_set.md R112): the container read, modified
and written back, big-endian. -/
def State.putField (s : State) (f : Field) (val : Word) : State :=
  s.setMem (s.mem.writeBytes (s.base.toNat + f.off) f.size
    (f.insert (s.mem.readBytes (s.base.toNat + f.off) f.size) val))

/-- The twelve bytes of the window become 0 (40_construct.md R83). -/
def State.zeroWindow (s : State) : State := s.setMem (s.mem.zero s.base.toNat hdrSize)

/-- Every access of the header window: `SHORT_WINDOW` while `LEN < 12` (10_state.md R22, 60_exceptions.md R152), else the
state `t`. A window outside the arena, which 10_state.md R27 excludes, stops the machine (log entry 6). -/
def State.onWindow (s : State) (t : State) : Host.Outcome State Fault Refusal :=
  if s.windowOk then
    if s.fits s.base.toNat hdrSize then .next t else .fault .windowOutsideArena
  else .next (s.raise .shortWindow)

/-- `GET(f)` (41_get.md R92). -/
def readField (f : Field) (s : State) : Host.Outcome State Fault Refusal :=
  s.onWindow (s.respond { d0 := s.getField f })

/-- `SET(f, val)` (42_set.md R112). -/
def writeField (f : Field) (val : Word) (s : State) : Host.Outcome State Fault Refusal :=
  s.onWindow ((s.putField f val).respond {})

/-- `CLR(f)`: "`SET` of rule 42_set.md R112 applied to the reserved field with value 0" (43_clear_reserved.md R130). -/
def clearField (f : Field) (s : State) : Host.Outcome State Fault Refusal :=
  s.onWindow ((s.putField f 0).respond {})

/-- Reset: `BASE = 0`, `LEN = 0`; `MEM` is neither read nor written (70_reset_and_hazards.md R170, R171). The words on the
port and the responses given are not the block's and stay (log entry 8). -/
def State.applyReset (s : State) : State := s.setBinding 0 0

/-- An illegal header word: `ILLEGAL_CMD`, one word consumed, no state change (60_exceptions.md R153). `rest` are the words
after it. -/
def illegalCommand (rest : List Word) (s : State) : Host.Outcome State Fault Refusal :=
  .next ((s.setPort rest).raise .illegalCmd)

/-- While no whole command stands on the port the block is idle (60_exceptions.md R168) and the host's next action happens:
it presents a word, writes an arena byte, or applies reset. With none left the run has ended and nothing changes
(70_reset_and_hazards.md R177; log entry 10). -/
def hostTurn (s : State) : Host.Outcome State Fault Refusal :=
  match s.host with
  | [] => .next s
  | .present w :: h => .next ((s.setHost h).setPort (s.port ++ [w]))
  | .write a b :: h =>
    if s.fits a.toNat 1 then .next ((s.setHost h).setMem (s.mem.write a.toNat b))
    else .fault .hostWriteOutsideArena
  | .reset :: h => .next (s.setHost h).applyReset

/-- What stands on the command port (30_encoding.md R60, R63). -/
def State.fetch (s : State) : Decoded := decode s.port

/-- The state with the command of a table row in front of the words on the port. -/
def State.placeCommand (s : State) (nbits w : Nat) : State :=
  s.setPort (firstCommandWords (tableWords nbits w) ++ s.port)

end Sys2Proof.Machine
end

