-- ==== Sys2Proof/Machine/Clear.lean ====
section
/-!
DEFINITION. The two reserved-bit clearing commands (43_clear_reserved.md R130 to R134), each the generic CLR at its field.
-/

namespace Sys2Proof.Machine

/-- CLR_RESV6A: the six bits of Reserved6a become 0 (43_clear_reserved.md R131). -/
def execClrResv6a (s : State) : Host.Outcome State Fault Refusal := clearField .resv6a s

/-- CLR_RESV7: the seven bits of Reserved7 become 0 (43_clear_reserved.md R132). -/
def execClrResv7 (s : State) : Host.Outcome State Fault Refusal := clearField .resv7 s

end Sys2Proof.Machine
end

