-- ==== Sys2Proof/Machine/Construct.lean ====
section
/-!
DEFINITION. The construction commands BIND and BUILD (40_construct.md).
-/

namespace Sys2Proof.Machine

/-- BIND base, len (40_construct.md R81, R82): bind to an existing buffer of any length that fits the arena. -/
def execBind (base len : Word) (s : State) : Host.Outcome State Fault Refusal :=
  .next (if s.fits base.toNat len.toNat then (s.setBinding base len).respond {} else s.raise .badDescriptor)

/-- The header BUILD makes in the window (40_construct.md R83): twelve zero bytes, then the eight setters in order. -/
def State.buildHeader (s : State) (opcode se mig pad pkey qpn ack psn : Word) : State :=
  (((((((s.zeroWindow.putField .opcode opcode).putField .se se).putField .mig mig).putField .pad pad).putField .pkey
    pkey).putField .qpn qpn).putField .ack ack).putField .psn psn

/-- BUILD base, opcode, se, mig, pad, pkey, qpn, ack, psn (40_construct.md R83): bind to a fresh 12-byte header. -/
def execBuild (base opcode se mig pad pkey qpn ack psn : Word) (s : State) : Host.Outcome State Fault Refusal :=
  .next (if s.fits base.toNat hdrSize then
      ((s.setBinding base (BitVec.ofNat 32 hdrSize)).buildHeader opcode se mig pad pkey qpn ack psn).respond {}
    else s.raise .badDescriptor)

end Sys2Proof.Machine
end

