-- ==== Sys2Proof/Machine/Frame.lean ====
section
/-!
DEFINITION. The commands of validation, the port predicate, framing and the layer services (44_validate_frame.md).
-/

namespace Sys2Proof.Machine

/-- VALIDATE base, len (44_validate_frame.md R136): "it does not take part in the result" of `base`; no state is read. -/
def execValidate (_base len : Word) (s : State) : Host.Outcome State Fault Refusal :=
  .next (s.respond { f := validFlag len })

/-- IS_IB_PORT port (44_validate_frame.md R138). -/
def execIsIbPort (port : Word) (s : State) : Host.Outcome State Fault Refusal :=
  .next (s.respond { f := ibPortFlag port })

/-- HDR_LEN (44_validate_frame.md R140): 12 in every state. -/
def execHdrLen (s : State) : Host.Outcome State Fault Refusal :=
  .next (s.respond { d0 := BitVec.ofNat 32 hdrSize })

/-- The payload descriptor `PARSE_NEXT` answers where `LEN >= 12` (44_validate_frame.md R142): none when nothing is left,
else the length and the address of the bytes after the header. -/
def State.payload (s : State) : Response :=
  if s.len = BitVec.ofNat 32 hdrSize then {}
  else { f := true, d0 := s.len - BitVec.ofNat 32 hdrSize, d1 := s.base + BitVec.ofNat 32 hdrSize }

/-- PARSE_NEXT (44_validate_frame.md R142): frame the payload; no arena byte is read. -/
def execParseNext (s : State) : Host.Outcome State Fault Refusal :=
  .next (if s.windowOk then s.respond s.payload else s.raise .shortWindow)

/-- CALC_FIELDS (44_validate_frame.md R144): "no-op (this header has no checksum or length field requiring
recomputation)". -/
def execCalcFields (s : State) : Host.Outcome State Fault Refusal := .next (s.respond {})

/-- OSI_LAYER (44_validate_frame.md R146): the parameter `OSI_TRANSPORT`. -/
def execOsiLayer (s : State) : Host.Outcome State Fault Refusal :=
  .next (s.respond { d0 := s.cfg.osiTransport })

end Sys2Proof.Machine
end

