-- ==== Sys2Proof/Machine/Get.lean ====
section
/-!
DEFINITION. The eleven field read commands (41_get.md R90, R92 to R105), each the generic GET at its field.
-/

namespace Sys2Proof.Machine

/-- GET_OPCODE: read OpCode (41_get.md R93). -/
def execGetOpcode (s : State) : Host.Outcome State Fault Refusal := readField .opcode s

/-- GET_SE: read SolicitedEvent (41_get.md R94). -/
def execGetSe (s : State) : Host.Outcome State Fault Refusal := readField .se s

/-- GET_MIG: read MigrationState (41_get.md R95). -/
def execGetMig (s : State) : Host.Outcome State Fault Refusal := readField .mig s

/-- GET_PAD: read PadCount (41_get.md R96). -/
def execGetPad (s : State) : Host.Outcome State Fault Refusal := readField .pad s

/-- GET_TVER: read TransportHeaderVersion (41_get.md R97). -/
def execGetTver (s : State) : Host.Outcome State Fault Refusal := readField .tver s

/-- GET_PKEY: read PartitionKey (41_get.md R98). -/
def execGetPkey (s : State) : Host.Outcome State Fault Refusal := readField .pkey s

/-- GET_FECN: read FECN (41_get.md R99). -/
def execGetFecn (s : State) : Host.Outcome State Fault Refusal := readField .fecn s

/-- GET_BECN: read BECN (41_get.md R100). -/
def execGetBecn (s : State) : Host.Outcome State Fault Refusal := readField .becn s

/-- GET_QPN: read QueuePairNumber (41_get.md R101). -/
def execGetQpn (s : State) : Host.Outcome State Fault Refusal := readField .qpn s

/-- GET_ACK: read AckRequest (41_get.md R102). -/
def execGetAck (s : State) : Host.Outcome State Fault Refusal := readField .ack s

/-- GET_PSN: read PacketSequenceNumber (41_get.md R103). -/
def execGetPsn (s : State) : Host.Outcome State Fault Refusal := readField .psn s

end Sys2Proof.Machine
end

