-- ==== Sys2Proof/Machine/Set.lean ====
section
/-!
DEFINITION. The eleven field write commands (42_set.md R110 to R127), each the generic SET at its field.
-/

namespace Sys2Proof.Machine

/-- SET_OPCODE val: write OpCode (42_set.md R113). -/
def execSetOpcode (val : Word) (s : State) : Host.Outcome State Fault Refusal := writeField .opcode val s

/-- SET_SE val: write SolicitedEvent (42_set.md R114). -/
def execSetSe (val : Word) (s : State) : Host.Outcome State Fault Refusal := writeField .se val s

/-- SET_MIG val: write MigrationState (42_set.md R115). -/
def execSetMig (val : Word) (s : State) : Host.Outcome State Fault Refusal := writeField .mig val s

/-- SET_PAD val: write PadCount (42_set.md R116). -/
def execSetPad (val : Word) (s : State) : Host.Outcome State Fault Refusal := writeField .pad val s

/-- SET_TVER val: write TransportHeaderVersion (42_set.md R117). -/
def execSetTver (val : Word) (s : State) : Host.Outcome State Fault Refusal := writeField .tver val s

/-- SET_PKEY val: write PartitionKey (42_set.md R118). -/
def execSetPkey (val : Word) (s : State) : Host.Outcome State Fault Refusal := writeField .pkey val s

/-- SET_FECN val: write FECN (42_set.md R119). -/
def execSetFecn (val : Word) (s : State) : Host.Outcome State Fault Refusal := writeField .fecn val s

/-- SET_BECN val: write BECN (42_set.md R120). -/
def execSetBecn (val : Word) (s : State) : Host.Outcome State Fault Refusal := writeField .becn val s

/-- SET_QPN val: write QueuePairNumber (42_set.md R121). -/
def execSetQpn (val : Word) (s : State) : Host.Outcome State Fault Refusal := writeField .qpn val s

/-- SET_ACK val: write AckRequest (42_set.md R122). -/
def execSetAck (val : Word) (s : State) : Host.Outcome State Fault Refusal := writeField .ack val s

/-- SET_PSN val: write PacketSequenceNumber (42_set.md R123). -/
def execSetPsn (val : Word) (s : State) : Host.Outcome State Fault Refusal := writeField .psn val s

end Sys2Proof.Machine
end

