-- ==== Sys2Proof/Machine/Dispatch.lean ====
section
/-!
DEFINITION. What each command does: one arm per constructor of `Instr`, each one call of its meaning (30_encoding.md R64).
-/

namespace Sys2Proof.Machine

def exec (i : Instr) (s : State) : Host.Outcome State Fault Refusal :=
  match i with
  | .calcFields => Sys2Proof.Machine.execCalcFields s
  | .bind base len => Sys2Proof.Machine.execBind base len s
  | .build base opcode se mig pad pkey qpn ack psn => Sys2Proof.Machine.execBuild base opcode se mig pad pkey qpn ack psn s
  | .validate base len => Sys2Proof.Machine.execValidate base len s
  | .isIbPort port => Sys2Proof.Machine.execIsIbPort port s
  | .hdrLen => Sys2Proof.Machine.execHdrLen s
  | .parseNext => Sys2Proof.Machine.execParseNext s
  | .osiLayer => Sys2Proof.Machine.execOsiLayer s
  | .getOpcode => Sys2Proof.Machine.execGetOpcode s
  | .getSe => Sys2Proof.Machine.execGetSe s
  | .getMig => Sys2Proof.Machine.execGetMig s
  | .getPad => Sys2Proof.Machine.execGetPad s
  | .getTver => Sys2Proof.Machine.execGetTver s
  | .getPkey => Sys2Proof.Machine.execGetPkey s
  | .getFecn => Sys2Proof.Machine.execGetFecn s
  | .getBecn => Sys2Proof.Machine.execGetBecn s
  | .getQpn => Sys2Proof.Machine.execGetQpn s
  | .getAck => Sys2Proof.Machine.execGetAck s
  | .getPsn => Sys2Proof.Machine.execGetPsn s
  | .setOpcode val => Sys2Proof.Machine.execSetOpcode val s
  | .setSe val => Sys2Proof.Machine.execSetSe val s
  | .setMig val => Sys2Proof.Machine.execSetMig val s
  | .setPad val => Sys2Proof.Machine.execSetPad val s
  | .setTver val => Sys2Proof.Machine.execSetTver val s
  | .setPkey val => Sys2Proof.Machine.execSetPkey val s
  | .setFecn val => Sys2Proof.Machine.execSetFecn val s
  | .setBecn val => Sys2Proof.Machine.execSetBecn val s
  | .setQpn val => Sys2Proof.Machine.execSetQpn val s
  | .setAck val => Sys2Proof.Machine.execSetAck val s
  | .setPsn val => Sys2Proof.Machine.execSetPsn val s
  | .clrResv6a => Sys2Proof.Machine.execClrResv6a s
  | .clrResv7 => Sys2Proof.Machine.execClrResv7 s

end Sys2Proof.Machine
end

