-- ==== Sys2Proof/Machine/Step.lean ====
section
/-!
DEFINITION. One step of the machine (00_scope.md R18, R19): a whole command on the port is executed as one indivisible step
(20_memory.md R47), an illegal header word answers ILLEGAL_CMD, and otherwise the host takes its turn. Hence the host never
acts while a command that could run stands on the port (R50).
-/

namespace Sys2Proof.Machine

/-- One step. -/
def step (s : State) : Host.Outcome State Fault Refusal :=
  match s.fetch with
  | .command i rest => exec i (s.setPort rest)
  | .illegal rest => illegalCommand rest s
  | .incomplete => hostTurn s

/-- Execute commands one after another, stopping at the first stop (30_encoding.md R73, R75: a pseudo-command is its
commands in order; 20_memory.md R51). -/
def execAll : List Instr → State → Host.Outcome State Fault Refusal
  | [], s => .next s
  | i :: is, s =>
    match exec i s with
    | .next t => execAll is t
    | .fault r => .fault r
    | .refused r => .refused r

/-- `s` with a table row's command where `step` fetches its next command: in front of the words on the command port. The
machine has no program counter (10_state.md R28); log entry 4 says how a program comes to run. -/
def State.withFetchWord (s : State) (nbits w : Nat) : State := s.placeCommand nbits w

end Sys2Proof.Machine
end

