-- ==== Sys2Proof/Safety.lean ====
section
/-!
DEFINITION. What a good state is, in the terms the statements use: the binding invariant (10_state.md R27), the canonical
form of memory, and every listed byte inside the arena (10_state.md R32).
-/

namespace Sys2Proof.Machine

/-- 10_state.md R27: `BASE + LEN <= ARENA_SIZE`, "evaluated without wrap-around". -/
def State.BindingInArena (s : State) : Prop := s.base.toNat + s.len.toNat ≤ s.cfg.arenaSize.val

/-- 10_state.md R32: the arena has the addresses `0 .. ARENA_SIZE-1` and no other. -/
def State.MemInArena (s : State) : Prop := ∀ c ∈ s.mem, c.1 < s.cfg.arenaSize.val

/-- The invariant of the machine: it holds after reset and every step keeps it. -/
structure State.Inv (s : State) : Prop where
  memWf : s.mem.wf = true
  memInArena : s.MemInArena
  binding : s.BindingInArena

/-- The block is bound to a whole header window inside the arena: `LEN >= 12` (10_state.md R22) with R27. -/
structure State.Bound (s : State) : Prop where
  long : 12 ≤ s.len.toNat
  binding : s.BindingInArena

/-- `k` steps of the machine, stopping at the first stop. -/
def runSteps : Nat → State → Host.Outcome State Fault Refusal
  | 0, s => .next s
  | k + 1, s =>
    match step s with
    | .next t => runSteps k t
    | .fault r => .fault r
    | .refused r => .refused r

/-- The command gives the response `r` and changes nothing else. -/
def Answers (i : Instr) (s : State) (r : Response) : Prop :=
  exec i s = .next { s with responses := s.responses ++ [r] }

/-- From `s` to `t` exactly the given bytes are stored at `a`, `a + 1`, ...: they read as given, and every byte of memory
outside them reads as before. -/
def State.Stored (s t : State) (a : Nat) (bytes : List Byte) : Prop :=
  (∀ k b, bytes[k]? = some b → t.mem.read (a + k) = b) ∧
  (∀ x, x < a ∨ a + bytes.length ≤ x → t.mem.read x = s.mem.read x)

/-- The command answers `OK`, stores the given bytes at `a` and changes nothing else. -/
def Stores (i : Instr) (s : State) (a : Nat) (bytes : List Byte) : Prop :=
  ∃ t, exec i s = .next t ∧ t = { s with mem := t.mem, responses := s.responses ++ [{ st := .ok }] } ∧ s.Stored t a bytes

/-- The two states hold the same bytes. -/
def State.SameBytes (s t : State) : Prop := ∀ a, s.mem.read a = t.mem.read a

/-- In either order the two commands complete and leave the same bytes. -/
def BytesCommute (i j : Instr) : Prop :=
  ∀ s : State, s.Bound → ∃ t u t' u', exec i s = .next t ∧ exec j t = .next u ∧
    exec j s = .next t' ∧ exec i t' = .next u' ∧ u.SameBytes u'

/-- The commands that read or write the header window: every GET, SET and CLR (60_exceptions.md R152). -/
def accessesWindow : Instr → Bool
  | .getOpcode => true
  | .getSe => true
  | .getMig => true
  | .getPad => true
  | .getTver => true
  | .getPkey => true
  | .getFecn => true
  | .getBecn => true
  | .getQpn => true
  | .getAck => true
  | .getPsn => true
  | .setOpcode _ => true
  | .setSe _ => true
  | .setMig _ => true
  | .setPad _ => true
  | .setTver _ => true
  | .setPkey _ => true
  | .setFecn _ => true
  | .setBecn _ => true
  | .setQpn _ => true
  | .setAck _ => true
  | .setPsn _ => true
  | .clrResv6a => true
  | .clrResv7 => true
  | .calcFields => false
  | .bind _ _ => false
  | .build _ _ _ _ _ _ _ _ _ => false
  | .validate _ _ => false
  | .isIbPort _ => false
  | .hdrLen => false
  | .parseNext => false
  | .osiLayer => false

/-- The eleven data fields, each as its GET, its SET and its width, in the order of 10_state.md R23 (R26). -/
def dataFields : List (Instr × (Word → Instr) × Nat) :=
  [(.getOpcode, .setOpcode, 8), (.getSe, .setSe, 1), (.getMig, .setMig, 1), (.getPad, .setPad, 2),
   (.getTver, .setTver, 4), (.getPkey, .setPkey, 16), (.getFecn, .setFecn, 1), (.getBecn, .setBecn, 1),
   (.getQpn, .setQpn, 24), (.getAck, .setAck, 1), (.getPsn, .setPsn, 24)]

/-- The two reserved-bit clearing commands (43_clear_reserved.md R130). -/
def clearCommands : List Instr := [.clrResv6a, .clrResv7]

end Sys2Proof.Machine
end

