-- ==== Sys2Proof/WellFormed.lean ====
section
/-!
DEFINITION. When a list of words is one whole legal command (30_encoding.md R61 to R64, R68). An `Instr` itself needs no
check: its operands are words, and "Every value of every operand word is legal: no operand value makes a command
illegal" (R67). What can be ill-formed is a command's words, so the checks stand on those; they are written from R64's
list and not from the decoder, so that the two can be held against each other.
-/

namespace Sys2Proof

/-- R64 and R62: each legal opcode with the number of words of its format (F0 1, F1 2, F2 3, F9 10). -/
def opcodeWords : List (Nat × Nat) :=
  [(0x00, 1), (0x01, 3), (0x02, 10), (0x03, 3), (0x04, 2), (0x05, 1), (0x06, 1), (0x07, 1)] ++
  [(0x10, 1), (0x11, 1), (0x12, 1), (0x13, 1), (0x14, 1), (0x15, 1), (0x16, 1), (0x17, 1), (0x19, 1), (0x1A, 1), (0x1C, 1)] ++
  [(0x20, 2), (0x21, 2), (0x22, 2), (0x23, 2), (0x24, 2), (0x25, 2), (0x26, 2), (0x27, 2), (0x29, 2), (0x2A, 2), (0x2C, 2)] ++
  [(0x38, 1), (0x3B, 1)]

/-- R61: the reserved bits 23..0 of a header word are 0. -/
def WellFormed.reservedZero (w0 : Word) : Bool := w0.toNat % 2 ^ 24 == 0

/-- R68: bits 31..24 of a header word are one of the 32 opcodes. -/
def WellFormed.opcodeLegal (w0 : Word) : Bool := (opcodeWords.lookup (w0.toNat / 2 ^ 24)).isSome

/-- R68: a header word is legal exactly when its reserved bits are 0 and its opcode is one of the 32. -/
def WellFormed.header (w0 : Word) : Bool := WellFormed.reservedZero w0 && WellFormed.opcodeLegal w0

/-- R62 and R63: the words are one whole command: a legal header word, and as many words as its format has. -/
def WellFormed.command : List Word → Bool
  | [] => false
  | w0 :: operands =>
    WellFormed.header w0 && opcodeWords.lookup (w0.toNat / 2 ^ 24) == some (operands.length + 1)

end Sys2Proof
end

