-- ==== Sys2Proof/Certificates/Slice0/Obligations.lean ====
section
/-!
DEFINITION. The statements for the provers. `Answers`, `Stores`, `State.Bound` and `State.Inv` are in Safety.lean;
`State.headerByte s i` is `H[i]`, the byte `MEM[BASE + i]` (10_state.md R21).
-/

namespace Sys2Proof.Machine

/-- The rule of a GET: its one command word; SHORT_WINDOW while `LEN < 12`; else the value in `d0`, and in either case
nothing but the response changes. -/
def GetRule (i : Instr) (w0 : Word) (value : State → Word) : Prop :=
  encode i = [w0] ∧
  (∀ s : State, s.len.toNat < 12 → Answers i s { st := .shortWindow }) ∧
  (∀ s : State, s.Bound → Answers i s { d0 := value s })

/-- The rule of a SET: its header word and operand; SHORT_WINDOW with nothing stored while `LEN < 12`; else the given
bytes at window offset `off`, every other byte of memory and every other part of the state unchanged. -/
def SetRule (mk : Word → Instr) (w0 : Word) (off : Nat) (bytes : State → Word → List Byte) : Prop :=
  (∀ v, encode (mk v) = [w0, v]) ∧
  (∀ v (s : State), s.len.toNat < 12 → Answers (mk v) s { st := .shortWindow }) ∧
  (∀ v (s : State), s.Bound → Stores (mk v) s (s.base.toNat + off) (bytes s v))

/-- The rule of a CLR: as of a SET, without an operand. -/
def ClearRule (i : Instr) (w0 : Word) (off : Nat) (bytes : State → List Byte) : Prop :=
  encode i = [w0] ∧
  (∀ s : State, s.len.toNat < 12 → Answers i s { st := .shortWindow }) ∧
  (∀ s : State, s.Bound → Stores i s (s.base.toNat + off) (bytes s))

/-- After an accepted BUILD, GET_TVER answers 0. -/
def TverZeroAfterBuild : Prop :=
  ∀ (base o se mig pad pkey qpn ack psn : Word) (s : State), base.toNat + 12 ≤ s.cfg.arenaSize.val →
    ∃ t, exec (.build base o se mig pad pkey qpn ack psn) s = .next t ∧ Answers .getTver t { d0 := 0 }

/-- The truncation example, on any window: after SET_PAD 7, GET_PAD answers 3. -/
def PadThreeAfterSetPadSeven : Prop :=
  ∀ s : State, s.Bound → ∃ t, exec (.setPad 7) s = .next t ∧ Answers .getPad t { d0 := 3 }

/-- The thirteen fields, in the order of their index. -/
def allFields : List Field := [.opcode, .se, .mig, .pad, .tver, .pkey, .fecn, .becn, .resv6a, .qpn, .ack, .resv7, .psn]

/-- Bit `i` of window byte `k` is a bit of the field: the byte is one of its container's, which is read big-endian, and the
bit's place in the container lies in the field's run. -/
def Field.holdsBit (f : Field) (k i : Nat) : Bool :=
  decide (f.off ≤ k ∧ k < f.off + f.size) &&
    decide (f.shift ≤ 8 * (f.off + f.size - 1 - k) + i ∧ 8 * (f.off + f.size - 1 - k) + i < f.shift + f.width)

/-- The words a list of commands is presented as. -/
def presentAll (is : List Instr) : List HostAction := (is.flatMap encode).map .present

/-- The steps in which the words of the commands are presented and each command is executed. -/
def stepsOf (is : List Instr) : Nat := (is.map (fun i => (encode i).length + 1)).sum

end Sys2Proof.Machine

open Sys2Proof Sys2Proof.Machine

/-! ### The GET commands -/

/-- 41_get.md R93. -/
def Obligations.GetOpcodeReadsByteZero : Prop :=
  GetRule .getOpcode 0x10000000 (fun s => (s.headerByte 0).setWidth 32)

/-- 41_get.md R94, R95, R96, R97. -/
def Obligations.GetReadsTheFieldsOfByteOne : Prop :=
  GetRule .getSe 0x11000000 (fun s => ((s.headerByte 1).extractLsb 7 7).setWidth 32) ∧
  GetRule .getMig 0x12000000 (fun s => ((s.headerByte 1).extractLsb 6 6).setWidth 32) ∧
  GetRule .getPad 0x13000000 (fun s => ((s.headerByte 1).extractLsb 5 4).setWidth 32) ∧
  GetRule .getTver 0x14000000 (fun s => ((s.headerByte 1).extractLsb 3 0).setWidth 32) ∧
  TverZeroAfterBuild ∧ PadThreeAfterSetPadSeven

/-- 41_get.md R98. -/
def Obligations.GetPkeyReadsBytesTwoAndThreeBigEndian : Prop :=
  GetRule .getPkey 0x15000000
    (fun s => BitVec.ofNat 32 ((s.headerByte 2).toNat * 256 + (s.headerByte 3).toNat))

/-- 41_get.md R99, R100, R101. -/
def Obligations.GetReadsTheFieldsOfTheSecondWord : Prop :=
  GetRule .getFecn 0x16000000 (fun s => ((s.headerByte 4).extractLsb 7 7).setWidth 32) ∧
  GetRule .getBecn 0x17000000 (fun s => ((s.headerByte 4).extractLsb 6 6).setWidth 32) ∧
  GetRule .getQpn 0x19000000 (fun s =>
    BitVec.ofNat 32 ((s.headerByte 5).toNat * 65536 + (s.headerByte 6).toNat * 256 + (s.headerByte 7).toNat))

/-- 41_get.md R102, R103. -/
def Obligations.GetReadsTheFieldsOfTheThirdWord : Prop :=
  GetRule .getAck 0x1A000000 (fun s => ((s.headerByte 8).extractLsb 7 7).setWidth 32) ∧
  GetRule .getPsn 0x1C000000 (fun s =>
    BitVec.ofNat 32 ((s.headerByte 9).toNat * 65536 + (s.headerByte 10).toNat * 256 + (s.headerByte 11).toNat))

/-- 41_get.md R104: a GET changes nothing but the response, whether it succeeds or faults; its answer is a function of
`MEM`, `BASE` and `LEN`; a SET of another field does not change it. -/
def Obligations.GetIsPure : Prop :=
  (∀ p ∈ dataFields, ∀ s : State, s.len.toNat < 12 ∨ s.Bound → ∃ r, Answers p.1 s r ∧
    ∀ s' : State, s'.mem = s.mem → s'.base = s.base → s'.len = s.len → s'.cfg = s.cfg → Answers p.1 s' r) ∧
  (∀ (j k : Nat) p q, dataFields[j]? = some p → dataFields[k]? = some q → j ≠ k →
    ∀ (v : Word) (s : State), s.Bound → ∃ t r, exec (q.2.1 v) s = .next t ∧ Answers p.1 s r ∧ Answers p.1 t r)

/-! ### The SET commands -/

/-- 42_set.md R113. -/
def Obligations.SetOpcodeWritesByteZero : Prop :=
  SetRule .setOpcode 0x20000000 0 (fun _ v => [v.extractLsb 7 0])

/-- 42_set.md R114, R115, R116, R117. -/
def Obligations.SetWritesTheFieldsOfByteOne : Prop :=
  SetRule .setSe 0x21000000 1
    (fun s v => [(s.headerByte 1 &&& 0x7F) ||| ((v.extractLsb 0 0).setWidth 8 <<< 7)]) ∧
  SetRule .setMig 0x22000000 1
    (fun s v => [(s.headerByte 1 &&& 0xBF) ||| ((v.extractLsb 0 0).setWidth 8 <<< 6)]) ∧
  SetRule .setPad 0x23000000 1
    (fun s v => [(s.headerByte 1 &&& 0xCF) ||| ((v.extractLsb 1 0).setWidth 8 <<< 4)]) ∧
  SetRule .setTver 0x24000000 1
    (fun s v => [(s.headerByte 1 &&& 0xF0) ||| (v.extractLsb 3 0).setWidth 8]) ∧
  TverZeroAfterBuild ∧ PadThreeAfterSetPadSeven

/-- 42_set.md R118. -/
def Obligations.SetPkeyWritesBytesTwoAndThreeBigEndian : Prop :=
  SetRule .setPkey 0x25000000 2 (fun _ v => [v.extractLsb 15 8, v.extractLsb 7 0])

/-- 42_set.md R119, R120, R121. -/
def Obligations.SetWritesTheFieldsOfTheSecondWord : Prop :=
  SetRule .setFecn 0x26000000 4
    (fun s v => [(s.headerByte 4 &&& 0x7F) ||| ((v.extractLsb 0 0).setWidth 8 <<< 7),
      s.headerByte 5, s.headerByte 6, s.headerByte 7]) ∧
  SetRule .setBecn 0x27000000 4
    (fun s v => [(s.headerByte 4 &&& 0xBF) ||| ((v.extractLsb 0 0).setWidth 8 <<< 6),
      s.headerByte 5, s.headerByte 6, s.headerByte 7]) ∧
  SetRule .setQpn 0x29000000 4
    (fun s v => [s.headerByte 4, v.extractLsb 23 16, v.extractLsb 15 8, v.extractLsb 7 0])

/-- 42_set.md R122, R123. -/
def Obligations.SetWritesTheFieldsOfTheThirdWord : Prop :=
  SetRule .setAck 0x2A000000 8
    (fun s v => [(s.headerByte 8 &&& 0x7F) ||| ((v.extractLsb 0 0).setWidth 8 <<< 7),
      s.headerByte 9, s.headerByte 10, s.headerByte 11]) ∧
  SetRule .setPsn 0x2C000000 8
    (fun s v => [s.headerByte 8, v.extractLsb 23 16, v.extractLsb 15 8, v.extractLsb 7 0])

/-- 42_set.md R124: `set(F, v); get(F) == trunc_w(v)`, "and no other field's current value changes". -/
def Obligations.SetThenGetReturnsTheTruncatedValue : Prop :=
  ∀ (j : Nat) p, dataFields[j]? = some p → ∀ (v : Word) (s : State), s.Bound →
    ∃ t, exec (p.2.1 v) s = .next t ∧ Answers p.1 t { d0 := BitVec.ofNat 32 (v.toNat % 2 ^ p.2.2) } ∧
      ∀ (k : Nat) q, dataFields[k]? = some q → j ≠ k → ∃ r, Answers q.1 s r ∧ Answers q.1 t r

/-- 42_set.md R125: a SET changes the value of no other data field and no reserved bit. -/
def Obligations.SetDisturbsNoOtherFieldAndNoReservedBit : Prop :=
  ∀ (j k : Nat) p q, dataFields[j]? = some p → dataFields[k]? = some q → j ≠ k →
    ∀ (v : Word) (s : State), s.Bound → ∃ t r, exec (p.2.1 v) s = .next t ∧ Answers q.1 s r ∧ Answers q.1 t r ∧
      t.headerByte 4 &&& 0x3F = s.headerByte 4 &&& 0x3F ∧ t.headerByte 8 &&& 0x7F = s.headerByte 8 &&& 0x7F

/-- 42_set.md R126 (the spec's decision D17 for the one-bit fields): an over-wide operand does what its low bits do, in
every state, and is answered `OK` with no data where the window exists. -/
def Obligations.SetTruncatesItsOperandSilently : Prop :=
  ∀ p ∈ dataFields, ∀ v : Word,
    (∀ s : State, exec (p.2.1 v) s = exec (p.2.1 (BitVec.ofNat 32 (v.toNat % 2 ^ p.2.2))) s) ∧
    (∀ s : State, s.Bound → ∃ t, exec (p.2.1 v) s = .next t ∧ t.responses = s.responses ++ [{ st := .ok }])

/-- The spec's own inference 42_set.md R127 ("[derived: from rule R112 and 10_state.md rule R23]"): a SET repeated, the
last of two SETs of one field, and two SETs of different fields, or a SET and a CLR, in either order. -/
def Obligations.SetsAreIdempotentAndCommute : Prop :=
  (∀ p ∈ dataFields, ∀ (a b : Word) (s : State), s.Bound → ∃ t u t', exec (p.2.1 a) s = .next t ∧
    exec (p.2.1 b) t = .next u ∧ exec (p.2.1 b) s = .next t' ∧ u.SameBytes t') ∧
  (∀ p ∈ dataFields, ∀ (a : Word) (s : State), s.Bound → ∃ t u, exec (p.2.1 a) s = .next t ∧
    exec (p.2.1 a) t = .next u ∧ u.SameBytes t) ∧
  (∀ (j k : Nat) p q, dataFields[j]? = some p → dataFields[k]? = some q → j ≠ k →
    ∀ a b : Word, BytesCommute (p.2.1 a) (q.2.1 b)) ∧
  (∀ p ∈ dataFields, ∀ c ∈ clearCommands, ∀ a : Word, BytesCommute (p.2.1 a) c)

/-! ### The CLR commands -/

/-- 43_clear_reserved.md R131. -/
def Obligations.ClrResv6aClearsTheSixBitsOfByteFour : Prop :=
  ClearRule .clrResv6a 0x38000000 4
    (fun s => [s.headerByte 4 &&& 0xC0, s.headerByte 5, s.headerByte 6, s.headerByte 7])

/-- 43_clear_reserved.md R132. -/
def Obligations.ClrResv7ClearsTheSevenBitsOfByteEight : Prop :=
  ClearRule .clrResv7 0x3B000000 8
    (fun s => [s.headerByte 8 &&& 0x80, s.headerByte 9, s.headerByte 10, s.headerByte 11])

/-- 43_clear_reserved.md R133: each CLR, and the pair CLR_RESV, twice leaves the bytes of once; the two commute with each
other and with every SET; the reserved bits are 0 after; no GET result changes. -/
def Obligations.ClearingIsIdempotentAndDisturbsNoField : Prop :=
  (∀ c ∈ clearCommands, ∀ s : State, s.Bound → ∃ t u, exec c s = .next t ∧ exec c t = .next u ∧ u.SameBytes t) ∧
  (∀ s : State, s.Bound → ∃ t u, execAll (expandPseudo .clrResv) s = .next t ∧
    execAll (expandPseudo .clrResv) t = .next u ∧ u.SameBytes t) ∧
  BytesCommute .clrResv6a .clrResv7 ∧
  (∀ p ∈ dataFields, ∀ c ∈ clearCommands, ∀ a : Word, BytesCommute c (p.2.1 a)) ∧
  (∀ s : State, s.Bound → ∃ t, exec .clrResv6a s = .next t ∧ t.headerByte 4 &&& 0x3F = 0) ∧
  (∀ s : State, s.Bound → ∃ t, exec .clrResv7 s = .next t ∧ t.headerByte 8 &&& 0x7F = 0) ∧
  (∀ p ∈ dataFields, ∀ c ∈ clearCommands, ∀ s : State, s.Bound →
    ∃ t r, exec c s = .next t ∧ Answers p.1 s r ∧ Answers p.1 t r)

/-- The spec's own inference 43_clear_reserved.md R134: only BUILD, CLR_RESV6A and CLR_RESV7 change a reserved bit of the
bound window. -/
def Obligations.OnlyBuildAndClearChangeAReservedBit : Prop :=
  ∀ (i : Instr) (s t : State), i ∉ clearCommands →
    (∀ base o se mig pad pkey qpn ack psn, i ≠ .build base o se mig pad pkey qpn ack psn) → exec i s = .next t →
    t.mem.read (s.base.toNat + 4) &&& 0x3F = s.headerByte 4 &&& 0x3F ∧
    t.mem.read (s.base.toNat + 8) &&& 0x7F = s.headerByte 8 &&& 0x7F

/-- 30_encoding.md R73: CLR_RESV is CLR_RESV6A then CLR_RESV7; it gives two responses, and if the first faults the second
faults too. -/
def Obligations.ClrResvIsTheTwoClearsInOrder : Prop :=
  expandPseudo .clrResv = [.clrResv6a, .clrResv7] ∧
  (∀ s : State, s.len.toNat < 12 → execAll (expandPseudo .clrResv) s =
    .next { s with responses := s.responses ++ [{ st := .shortWindow }, { st := .shortWindow }] }) ∧
  (∀ s : State, s.Bound → ∃ t, execAll (expandPseudo .clrResv) s = .next t ∧
    t = { s with mem := t.mem, responses := s.responses ++ [{ st := .ok }, { st := .ok }] } ∧
    s.Stored t (s.base.toNat + 4) [s.headerByte 4 &&& 0xC0, s.headerByte 5, s.headerByte 6, s.headerByte 7,
      s.headerByte 8 &&& 0x80, s.headerByte 9, s.headerByte 10, s.headerByte 11])

/-- 30_encoding.md R75: SUMMARY is GET_OPCODE, GET_QPN, GET_PSN, in that order, and gives three responses. -/
def Obligations.SummaryAnswersOpcodeQpnAndPsn : Prop :=
  expandPseudo .summary = [.getOpcode, .getQpn, .getPsn] ∧
  (∀ s : State, s.len.toNat < 12 → execAll (expandPseudo .summary) s = .next { s with responses :=
    s.responses ++ [{ st := .shortWindow }, { st := .shortWindow }, { st := .shortWindow }] }) ∧
  (∀ s : State, s.Bound → execAll (expandPseudo .summary) s = .next { s with responses := s.responses ++
    [{ d0 := (s.headerByte 0).setWidth 32 },
     { d0 := BitVec.ofNat 32
        ((s.headerByte 5).toNat * 65536 + (s.headerByte 6).toNat * 256 + (s.headerByte 7).toNat) },
     { d0 := BitVec.ofNat 32
        ((s.headerByte 9).toNat * 65536 + (s.headerByte 10).toNat * 256 + (s.headerByte 11).toNat) }] })

/-! ### Construction -/

/-- 40_construct.md R81. -/
def Obligations.BindSetsBaseAndLenOrRefusesTheDescriptor : Prop :=
  (∀ base len, encode (.bind base len) = [0x01000000, base, len]) ∧
  (∀ base len (s : State), s.cfg.arenaSize.val < base.toNat + len.toNat →
    Answers (.bind base len) s { st := .badDescriptor }) ∧
  (∀ base len (s : State), base.toNat + len.toNat ≤ s.cfg.arenaSize.val →
    exec (.bind base len) s = .next { s with base := base, len := len, responses := s.responses ++ [{ st := .ok }] }) ∧
  (∀ s : State, Answers (.bind 0xFFFFFFFF 0xFFFFFFFF) s { st := .badDescriptor })

/-- 40_construct.md R83: the pseudocode of BUILD. The eight SETs run on the zeroed window, and BUILD's one response
stands for theirs. -/
def Obligations.BuildZeroesTheWindowAndRunsTheEightSetters : Prop :=
  (∀ base o se mig pad pkey qpn ack psn, encode (.build base o se mig pad pkey qpn ack psn) =
    [0x02000000, base, o, se, mig, pad, pkey, qpn, ack, psn]) ∧
  (∀ base o se mig pad pkey qpn ack psn (s : State), s.cfg.arenaSize.val < base.toNat + 12 →
    Answers (.build base o se mig pad pkey qpn ack psn) s { st := .badDescriptor }) ∧
  (∀ base o se mig pad pkey qpn ack psn (s : State), base.toNat + 12 ≤ s.cfg.arenaSize.val →
    ∃ u, execAll [.setOpcode o, .setSe se, .setMig mig, .setPad pad, .setPkey pkey, .setQpn qpn, .setAck ack,
        .setPsn psn] { s with base := base, len := 12, mem := s.mem.zero base.toNat 12 } = .next u ∧
      s.Stored { s with mem := s.mem.zero base.toNat 12 } base.toNat (List.replicate 12 0) ∧
      exec (.build base o se mig pad pkey qpn ack psn) s = .next { u with responses := s.responses ++ [{ st := .ok }] })

/-- The spec's own inference 40_construct.md R84, the closed form of the window after an accepted BUILD, with BUILD's
frame: `BASE`, `LEN`, the response and these twelve bytes change and nothing else. -/
def Obligations.BuildWritesTheClosedFormOfTheHeader : Prop :=
  ∀ (base o se mig pad pkey qpn ack psn : Word) (s : State), base.toNat + 12 ≤ s.cfg.arenaSize.val →
    ∃ t, exec (.build base o se mig pad pkey qpn ack psn) s = .next t ∧
      t = { s with base := base, len := 12, mem := t.mem, responses := s.responses ++ [{ st := .ok }] } ∧
      s.Stored t base.toNat [o.extractLsb 7 0,
        ((se.extractLsb 0 0).setWidth 8 <<< 7) ||| ((mig.extractLsb 0 0).setWidth 8 <<< 6) |||
          ((pad.extractLsb 1 0).setWidth 8 <<< 4),
        pkey.extractLsb 15 8, pkey.extractLsb 7 0,
        0x00, qpn.extractLsb 23 16, qpn.extractLsb 15 8, qpn.extractLsb 7 0,
        (ack.extractLsb 0 0).setWidth 8 <<< 7, psn.extractLsb 23 16, psn.extractLsb 15 8, psn.extractLsb 7 0]

/-- 40_construct.md R85: BUILD leaves the bytes that zeroing twelve bytes at `base`, binding them and issuing the eight
SETs leave. `z` is any state that differs from `s` by those zeroed bytes only. -/
def Obligations.BuildEqualsBindThenSettersOnZeroedBytes : Prop :=
  ∀ (base o se mig pad pkey qpn ack psn : Word) (s z : State), base.toNat + 12 ≤ s.cfg.arenaSize.val →
    z = { s with mem := z.mem } → s.Stored z base.toNat (List.replicate 12 0) →
    ∃ t u, exec (.build base o se mig pad pkey qpn ack psn) s = .next t ∧
      execAll [.bind base 12, .setOpcode o, .setSe se, .setMig mig, .setPad pad, .setPkey pkey, .setQpn qpn,
        .setAck ack, .setPsn psn] z = .next u ∧
      t.SameBytes u ∧ t.base = u.base ∧ t.len = u.len

/-! ### Validation, the port predicate, framing, the layer services -/

/-- 44_validate_frame.md R136: the answer is the unsigned length test alone, in every state. -/
def Obligations.ValidateTestsTheLengthOnly : Prop :=
  (∀ base len, encode (.validate base len) = [0x03000000, base, len]) ∧
  (∀ base len (s : State), 12 ≤ len.toNat → Answers (.validate base len) s { f := true }) ∧
  (∀ base len (s : State), len.toNat < 12 → Answers (.validate base len) s { f := false })

/-- 44_validate_frame.md R138: all 32 bits of the operand are compared with 4791. -/
def Obligations.IsIbPortIsTrueOfPort4791Alone : Prop :=
  (∀ port, encode (.isIbPort port) = [0x04000000, port]) ∧
  (∀ port (s : State), port.toNat = 4791 → Answers (.isIbPort port) s { f := true }) ∧
  (∀ port (s : State), port.toNat ≠ 4791 → Answers (.isIbPort port) s { f := false })

/-- 44_validate_frame.md R140, R144, R146; 30_encoding.md R74: the three services answer their constants in every state
and change nothing; NOP is CALC_FIELDS. -/
def Obligations.LayerServicesAnswerConstants : Prop :=
  encode .hdrLen = [0x05000000] ∧ (∀ s : State, Answers .hdrLen s { d0 := 12 }) ∧
  encode .calcFields = [0x00000000] ∧ (∀ s : State, Answers .calcFields s { st := .ok }) ∧
  expandPseudo .nop = [.calcFields] ∧
  encode .osiLayer = [0x07000000] ∧ (∀ s : State, Answers .osiLayer s { d0 := s.cfg.osiTransport })

/-- 44_validate_frame.md R142. The sum `BASE + 12` does not wrap and the segment lies in the arena where the binding
invariant holds. -/
def Obligations.ParseNextFramesThePayload : Prop :=
  encode .parseNext = [0x06000000] ∧
  (∀ s : State, s.len.toNat < 12 → Answers .parseNext s { st := .shortWindow }) ∧
  (∀ s : State, s.len.toNat = 12 → Answers .parseNext s { st := .ok }) ∧
  (∀ s : State, 12 < s.len.toNat → Answers .parseNext s { f := true, d0 := s.len - 12, d1 := s.base + 12 } ∧
    (s.len - 12).toNat = s.len.toNat - 12) ∧
  (∀ s : State, 12 < s.len.toNat → s.BindingInArena → (s.base + 12).toNat = s.base.toNat + 12 ∧
    (s.base + 12).toNat + (s.len - 12).toNat ≤ s.cfg.arenaSize.val)

/-! ### Responses and faults -/

/-- 60_exceptions.md R150: the four codes and their meanings; every command that completes gives one response, and one with
`st != 0` has `f = 0`, `d0 = 0`, `d1 = 0` and the command changed no state; so too an illegal header word. -/
def Obligations.EveryCommandRespondsOnceAndAFaultChangesNothing : Prop :=
  (Status.ok.code = 0 ∧ Status.shortWindow.code = 1 ∧ Status.illegalCmd.code = 2 ∧ Status.badDescriptor.code = 3) ∧
  (∀ (i : Instr) (s t : State), exec i s = .next t → ∃ r : Response, t.responses = s.responses ++ [r] ∧
    (r.st.code ≠ 0 → r.f = false ∧ r.d0 = 0 ∧ r.d1 = 0 ∧ t = { s with responses := s.responses ++ [r] }) ∧
    (r.st = .shortWindow → (accessesWindow i = true ∨ i = .parseNext) ∧ s.len.toNat < 12) ∧
    r.st ≠ .illegalCmd ∧
    (r.st = .badDescriptor →
      (∃ base len, i = .bind base len ∧ s.cfg.arenaSize.val < base.toNat + len.toNat) ∨
      (∃ base o se mig pad pkey qpn ack psn, i = .build base o se mig pad pkey qpn ack psn ∧
        s.cfg.arenaSize.val < base.toNat + 12))) ∧
  (∀ (w0 : Word) (ws : List Word) (s : State), WellFormed.header w0 = false → s.port = w0 :: ws →
    step s = .next { s with
      port := ws
      responses := s.responses ++ [{ st := .illegalCmd, f := false, d0 := 0, d1 := 0 }] })

/-- 60_exceptions.md R152: SHORT_WINDOW is raised by every GET, SET, CLR and PARSE_NEXT when and only when `LEN < 12`, and
by no other command. -/
def Obligations.ShortWindowExactlyWhenFewerThanTwelveBytesAreBound : Prop :=
  (∀ (i : Instr) (s : State), accessesWindow i = true ∨ i = .parseNext → s.len.toNat < 12 →
    Answers i s { st := .shortWindow }) ∧
  (∀ (i : Instr) (s : State) (r : Response), 12 ≤ s.len.toNat → Answers i s r → r.st ≠ .shortWindow) ∧
  (∀ (i : Instr) (s : State) (r : Response), accessesWindow i = false → i ≠ .parseNext → Answers i s r →
    r.st ≠ .shortWindow)

/-- 60_exceptions.md R154: BAD_DESCRIPTOR is raised by BIND and BUILD when and only when the region does not fit the
arena; the state is then unchanged. -/
def Obligations.BadDescriptorExactlyWhenTheRegionDoesNotFit : Prop :=
  (∀ base len (s : State), Answers (.bind base len) s { st := .badDescriptor } ↔
    s.cfg.arenaSize.val < base.toNat + len.toNat) ∧
  (∀ base o se mig pad pkey qpn ack psn (s : State),
    Answers (.build base o se mig pad pkey qpn ack psn) s { st := .badDescriptor } ↔
      s.cfg.arenaSize.val < base.toNat + 12)

/-- 60_exceptions.md R153: an illegal header word is a command of one word that raises ILLEGAL_CMD and changes no state; a
legal command never raises it. -/
def Obligations.IllegalHeaderRaisesIllegalCmdAndConsumesOneWord : Prop :=
  (∀ (w0 : Word) (ws : List Word) (s : State), WellFormed.header w0 = false → s.port = w0 :: ws →
    step s = .next { s with port := ws, responses := s.responses ++ [{ st := .illegalCmd }] }) ∧
  (∀ (i : Instr) (s : State) (r : Response), Answers i s r → r.st ≠ .illegalCmd)

/-- From 70_reset_and_hazards.md R185 ("Every command terminates: no command waits on anything") and the binding invariant:
each of the 32 commands completes with one response from every state whose binding lies in the arena. -/
def Obligations.EveryCommandCompletesWhereTheBindingIsInTheArena : Prop :=
  ∀ (i : Instr) (s : State), s.BindingInArena →
    ∃ t r, exec i s = .next t ∧ t.responses = s.responses ++ [r] ∧ t.BindingInArena

/-- The model's own stop, log entry 6: a GET, SET or CLR on a window that reaches outside the arena. -/
def Obligations.WindowOutsideTheArenaStops : Prop :=
  ∀ (i : Instr) (s : State), accessesWindow i = true → 12 ≤ s.len.toNat →
    s.cfg.arenaSize.val < s.base.toNat + 12 → exec i s = .fault .windowOutsideArena

/-! ### What a command leaves alone -/

/-- From 10_state.md R32 and 20_memory.md R45: no command changes a byte outside the twelve bytes of the window it leaves
bound, and a command that is neither BUILD nor an access of the window leaves the arena as it is. -/
def Obligations.OnlyTheTwelveWindowBytesChange : Prop :=
  ∀ (i : Instr) (s t : State), exec i s = .next t →
    (∀ a, a < t.base.toNat ∨ t.base.toNat + 12 ≤ a → t.mem.read a = s.mem.read a) ∧
    (accessesWindow i = false → (∀ base o se mig pad pkey qpn ack psn, i ≠ .build base o se mig pad pkey qpn ack psn) →
      t.mem = s.mem)

/-- From 10_state.md R25 and 00_scope.md R11: only BIND and BUILD write `BASE` and `LEN`; no command writes the
parameters, and none touches the command port or the host. -/
def Obligations.OnlyBindAndBuildWriteTheBindingRegisters : Prop :=
  ∀ (i : Instr) (s t : State), exec i s = .next t →
    ((∀ base len, i ≠ .bind base len) →
      (∀ base o se mig pad pkey qpn ack psn, i ≠ .build base o se mig pad pkey qpn ack psn) →
      t.base = s.base ∧ t.len = s.len) ∧
    t.cfg = s.cfg ∧ t.port = s.port ∧ t.host = s.host

/-- 20_memory.md R44: a GET, SET or CLR gives the same result at any alignment of `BASE`: two bound states with the same
twelve window bytes give the same response and the same window bytes after. -/
def Obligations.TheResultIsTheSameAtEveryBase : Prop :=
  ∀ (i : Instr) (s s' : State), accessesWindow i = true → s.Bound → s'.Bound →
    (∀ k, k < 12 → s.headerByte k = s'.headerByte k) →
    ∃ t t' r, exec i s = .next t ∧ exec i s' = .next t' ∧ t.responses = s.responses ++ [r] ∧
      t'.responses = s'.responses ++ [r] ∧ r.st = .ok ∧ (∀ k, k < 12 → t.headerByte k = t'.headerByte k)

/-! ### Encoding and memory -/

/-- Words written out from 30_encoding.md R64 and 95_test_vectors.md: a few decode to the commands they stand for, with
the words after them left, and a few are illegal. -/
def Obligations.SampleWordsDecodeAsTabled : Prop :=
  decode [0x01000000, 0x100, 0x10, 0x10000000] = .command (.bind 0x100 0x10) [0x10000000] ∧
  decode [0x19000000] = .command .getQpn [] ∧
  decode [0x23000000, 7, 0x13000000] = .command (.setPad 7) [0x13000000] ∧
  decode [0x38000000] = .command .clrResv6a [] ∧
  decode [0x06000000] = .command .parseNext [] ∧
  decode [0x18000000, 5] = .illegal [5] ∧
  decode [0x10000001] = .illegal []

/-- Every command's words decode to that command and leave the words after them, whatever the operands. -/
def Obligations.DecodeOfEncodeIsTheCommand : Prop :=
  ∀ (i : Instr) (ws : List Word), decode (encode i ++ ws) = .command i ws

/-- The other direction: what decodes to a command is that command's encoding, and no more and no fewer words are
consumed. -/
def Obligations.DecodedWordsAreTheEncodingOfTheCommand : Prop :=
  ∀ (ws rest : List Word) (i : Instr), decode ws = .command i rest → ws = encode i ++ rest

/-- 30_encoding.md R68: a header word is legal exactly when its bits 23..0 are 0 and its bits 31..24 are one of the 32
opcodes; every other one is illegal, in front of any words: one word long, ILLEGAL_CMD, no state changed. -/
def Obligations.HeaderIsLegalExactlyForThe32Opcodes : Prop :=
  ∀ (w0 : Word) (ws : List Word),
    (decode (w0 :: ws) = .illegal ws ↔ ¬ (w0.toNat % 2 ^ 24 = 0 ∧ w0.toNat / 2 ^ 24 ∈
      [0x00, 0x01, 0x02, 0x03, 0x04, 0x05, 0x06, 0x07, 0x10, 0x11, 0x12, 0x13, 0x14, 0x15, 0x16, 0x17, 0x19, 0x1A,
       0x1C, 0x20, 0x21, 0x22, 0x23, 0x24, 0x25, 0x26, 0x27, 0x29, 0x2A, 0x2C, 0x38, 0x3B])) ∧
    (∀ s : State, decode (w0 :: ws) = .illegal ws → s.port = w0 :: ws →
      step s = .next { s with port := ws, responses := s.responses ++ [{ st := .illegalCmd }] })

/-- 00_scope.md R14: `MemRead` and `MemWrite` of 1, 2 and 4 bytes, the byte at the lowest address the most significant;
every container lies in the window, and so in the arena. -/
def Obligations.MemReadAndMemWriteAreBigEndian : Prop :=
  (∀ (m : Memory) (a : Nat), (m.readBytes a 1).toNat = (m.read a).toNat) ∧
  (∀ (m : Memory) (a : Nat), (m.readBytes a 2).toNat = (m.read a).toNat * 2 ^ 8 + (m.read (a + 1)).toNat) ∧
  (∀ (m : Memory) (a : Nat), (m.readBytes a 4).toNat = (m.read a).toNat * 2 ^ 24 + (m.read (a + 1)).toNat * 2 ^ 16 +
    (m.read (a + 2)).toNat * 2 ^ 8 + (m.read (a + 3)).toNat) ∧
  (∀ (m : Memory) (a n i : Nat) (v : Word), n ∈ [1, 2, 4] → i < n →
    ((m.writeBytes a n v).read (a + i)).toNat = v.toNat / 2 ^ (8 * (n - 1 - i)) % 2 ^ 8) ∧
  (∀ (m : Memory) (a n b : Nat) (v : Word), n ∈ [1, 2, 4] → b < a ∨ a + n ≤ b →
    (m.writeBytes a n v).read b = m.read b) ∧
  (∀ (f : Field) (s : State), s.Bound → f.size ∈ [1, 2, 4] ∧ f.off + f.size ≤ 12 ∧
    s.base.toNat + f.off + f.size ≤ s.cfg.arenaSize.val)

/-- 10_state.md R23: the table of the thirteen fields, in the order of their index: offset, bytes, shift, width, mask; the
widths sum to 96, and bit `i` of window byte `k` belongs to exactly one field. -/
def Obligations.TheFieldTableIsThatOfTheSpec : Prop :=
  allFields.map (fun f => (f.index, f.off, f.size, f.shift, f.width, f.mask.toNat)) =
    [(0, 0, 1, 0, 8, 0xFF), (1, 1, 1, 7, 1, 0x80), (2, 1, 1, 6, 1, 0x40), (3, 1, 1, 4, 2, 0x30), (4, 1, 1, 0, 4, 0x0F),
     (5, 2, 2, 0, 16, 0xFFFF), (6, 4, 4, 31, 1, 0x80000000), (7, 4, 4, 30, 1, 0x40000000),
     (8, 4, 4, 24, 6, 0x3F000000), (9, 4, 4, 0, 24, 0x00FFFFFF), (10, 8, 4, 31, 1, 0x80000000),
     (11, 8, 4, 24, 7, 0x7F000000), (12, 8, 4, 0, 24, 0x00FFFFFF)] ∧
  (∀ f : Field, f ∈ allFields) ∧ (allFields.map Field.width).sum = 96 ∧
  (∀ k : Fin 12, ∀ i : Fin 8, (allFields.filter fun f => f.holdsBit k.val i.val).length = 1)

/-! ### The machine: steps, the host, reset, invariants -/

/-- A step runs the decoded command (30_encoding.md section 1, 20_memory.md section 3): its words leave the port, and
nothing else is done around `exec`. -/
def Obligations.StepRunsTheDecodedCommand : Prop :=
  ∀ (s : State) (i : Instr) (rest : List Word), decode s.port = .command i rest →
    step s = exec i { s with port := rest }

/-- 30_encoding.md R60: a command whose words have not all been presented has no effect; when the last word has been
presented, the command is executed and answers one response (the model's host script, log entry 4). -/
def Obligations.ACommandRunsWhenAllItsWordsArePresented : Prop :=
  (∀ (i : Instr) (k : Nat) (s : State), k < (encode i).length → s.port = (encode i).take k → s.host = [] →
    step s = .next s) ∧
  (∀ (i : Instr) (h : List HostAction) (s : State), s.port = [] → s.host = (encode i).map .present ++ h →
    runSteps (encode i).length s = .next { s with port := encode i, host := h } ∧
    runSteps ((encode i).length + 1) s = exec i { s with host := h })

/-- From 20_memory.md R51 and 30_encoding.md R60, over the model's host script (log entry 4): commands presented word by
word run as the sequence of the commands, in the order issued. -/
def Obligations.PresentedCommandsRunInTheOrderIssued : Prop :=
  ∀ (is : List Instr) (h : List HostAction) (s : State), s.port = [] → s.host = presentAll is ++ h →
    runSteps (stepsOf is) s = execAll is { s with host := h }

/-- From 20_memory.md R50, over the model's host script (log entries 4 and 7): while no whole command stands on the port, a
host write stores its byte in the arena and changes nothing else; outside the arena it stops the machine. -/
def Obligations.HostWriteStoresItsByteBetweenCommands : Prop :=
  (∀ (s : State) (a : Word) (b : Byte) (h : List HostAction), decode s.port = .incomplete →
    s.host = .write a b :: h → a.toNat < s.cfg.arenaSize.val →
    ∃ t, step s = .next t ∧ t = { s with mem := t.mem, host := h } ∧ s.Stored t a.toNat [b]) ∧
  (∀ (s : State) (a : Word) (b : Byte) (h : List HostAction), decode s.port = .incomplete →
    s.host = .write a b :: h → s.cfg.arenaSize.val ≤ a.toNat → step s = .fault .hostWriteOutsideArena)

/-- From 70_reset_and_hazards.md R170 and R171 (the spec's decision D27; that the words on the port stay is log entry 8):
reset makes `BASE` and `LEN` 0 and leaves `MEM` alone, so every window command answers SHORT_WINDOW after it. -/
def Obligations.ResetUnbindsAndLeavesMemory : Prop :=
  ∀ (s : State) (h : List HostAction), decode s.port = .incomplete → s.host = .reset :: h →
    ∃ t, step s = .next t ∧ t = { s with base := 0, len := 0, host := h } ∧
      ∀ i, accessesWindow i = true ∨ i = .parseNext → Answers i t { st := .shortWindow }

/-- 10_state.md R33 (the spec's decision D27), with the free bytes of log entry 1: `BASE = 0`, `LEN = 0`, every byte
unspecified, no window. -/
def Obligations.TheResetStateIsUnbound : Prop :=
  State.reset.base = 0 ∧ State.reset.len = 0 ∧ (∀ a, State.reset.mem.read a = Config.freeArenaByte a) ∧
  (∀ i, accessesWindow i = true ∨ i = .parseNext → Answers i State.reset { st := .shortWindow })

/-- The model's log entry 10, from 60_exceptions.md R168 and 70_reset_and_hazards.md R177: with no whole command on the
port and no host action left, nothing changes. -/
def Obligations.TheIdleBlockHoldsItsState : Prop :=
  ∀ s : State, decode s.port = .incomplete → s.host = [] → step s = .next s

/-- The invariant (10_state.md R27 and R32, canonical memory) holds after reset, whatever the arena size. -/
def Obligations.InvariantHoldsAtReset : Prop := State.reset.Inv

/-- The invariant is kept by every step: memory stays canonical and inside the arena, and `BASE + LEN <= ARENA_SIZE`
(the spec's own inference 10_state.md R27). -/
def Obligations.EveryStepKeepsTheInvariant : Prop :=
  ∀ s t : State, s.Inv → step s = .next t → t.Inv

/-- From 20_memory.md R49 ("Together they ensure the block never touches an address outside `0 .. ARENA_SIZE-1`"). The fault
windowOutsideArena is the model's own choice, log entry 6: it stands for such a touch. From a state that meets the
invariant no run, of any length and under any host script, ends in it, and no command is refused. -/
def Obligations.NoRunReachesAWindowOutsideTheArena : Prop :=
  ∀ (k : Nat) (s : State), s.Inv → runSteps k s ≠ .fault .windowOutsideArena ∧
    ∀ r, runSteps k s ≠ .refused r
end

