-- ==== Sys2Proof/Laws/Decode.lean ====
section
/-!
SUPPORT. The header word's two fields (30_encoding.md R61) and the decoder in front of a header word.
-/

namespace Sys2Proof

theorem opField_headerWord {op : Nat} (h : op < 256) : opField (headerWord op) = op := by
  simp only [opField, headerWord, BitVec.toNat_ofNat]
  omega

theorem rsvField_headerWord (op : Nat) : rsvField (headerWord op) = 0 := by
  simp only [rsvField, headerWord, BitVec.toNat_ofNat]
  omega

/-- A header word whose reserved bits are 0 is that of its opcode. -/
theorem headerWord_opField {w0 : Word} (h : rsvField w0 = 0) : headerWord (opField w0) = w0 := by
  apply BitVec.eq_of_toNat_eq
  have := w0.isLt
  simp only [headerWord, opField, rsvField, BitVec.toNat_ofNat] at *
  omega

/-- R70: decoding goes by the opcode alone where the reserved bits are 0. -/
theorem decode_headerWord {op : Nat} (h : op < 256) (ws : List Word) :
    decode (headerWord op :: ws) = decodeOp op ws := by
  rw [decode, if_pos (rsvField_headerWord op), opField_headerWord h]

theorem Instr.opcode_lt (i : Instr) : i.opcode < 256 := by
  cases i <;> simp [Instr.opcode]

end Sys2Proof
end

