-- ==== Sys2Proof/Laws/Memory.lean ====
section
/-!
SUPPORT. The arena as plain memory (20_memory.md R46): a read after a write, what a write leaves alone, and that every
memory operation keeps the canonical form and stays inside a bound on addresses.
-/

namespace Sys2Proof.Machine

theorem Memory.lookup_write (m : Memory) (a b : Nat) (v : Byte) :
    (m.write a v).lookup b = if b = a then some v else m.lookup b := by
  induction m with
  | nil => rfl
  | cons c m ih =>
    obtain ⟨k, w⟩ := c
    by_cases h1 : a < k
    · simp [Memory.write, h1, Memory.lookup]
    · by_cases h2 : a = k
      · subst h2
        by_cases h3 : b = a <;> simp [Memory.write, Memory.lookup, h3]
      · by_cases h3 : b = a
        · subst h3
          simp [Memory.write, Memory.lookup, h1, h2, ih]
        · simp [Memory.write, Memory.lookup, h1, h2, h3, ih]

/-- A read after a write. -/
theorem Memory.read_write (m : Memory) (a b : Nat) (v : Byte) :
    (m.write a v).read b = if b = a then v else m.read b := by
  unfold Memory.read
  rw [Memory.lookup_write]
  split <;> rfl

theorem Memory.read_write_same (m : Memory) (a : Nat) (v : Byte) : (m.write a v).read a = v := by
  simp [Memory.read_write]

theorem Memory.read_write_other (m : Memory) {a b : Nat} (v : Byte) (h : b ≠ a) :
    (m.write a v).read b = m.read b := by
  simp [Memory.read_write, h]

theorem Memory.risingAbove_write {m : Memory} {k a : Nat} (v : Byte) (hk : k < a) (h : m.risingAbove k = true) :
    (m.write a v).risingAbove k = true := by
  induction m generalizing k with
  | nil => simp [Memory.write, Memory.risingAbove, hk]
  | cons c m ih =>
    obtain ⟨j, w⟩ := c
    simp only [Memory.risingAbove, Bool.and_eq_true, decide_eq_true_eq] at h
    by_cases h1 : a < j
    · simp [Memory.write, h1, Memory.risingAbove, hk, h.2]
    · by_cases h2 : a = j
      · subst h2; simp [Memory.write, Memory.risingAbove, hk, h.2]
      · have hj : j < a := by omega
        simp [Memory.write, h1, h2, Memory.risingAbove, h.1, ih hj h.2]

theorem Memory.write_wf {m : Memory} (a : Nat) (v : Byte) (h : m.wf = true) : (m.write a v).wf = true := by
  cases m with
  | nil => rfl
  | cons c m =>
    obtain ⟨k, w⟩ := c
    by_cases h1 : a < k
    · simpa [Memory.write, h1, Memory.wf, Memory.risingAbove] using h
    · by_cases h2 : a = k
      · subst h2; simpa [Memory.write, Memory.wf] using h
      · have hk : k < a := by omega
        simpa [Memory.write, h1, h2, Memory.wf] using Memory.risingAbove_write v hk h

theorem Memory.writeBytes_wf {m : Memory} (a n : Nat) (v : Word) (h : m.wf = true) :
    (m.writeBytes a n v).wf = true := by
  induction n generalizing m v with
  | zero => exact h
  | succ n ih => exact ih _ (Memory.write_wf _ _ h)

/-- The memory of the state after reset is canonical. -/
theorem State.reset_mem_wf : State.reset.mem.wf = true := rfl

theorem Memory.zero_wf {m : Memory} (a n : Nat) (h : m.wf = true) : (m.zero a n).wf = true := by
  induction n with
  | zero => exact h
  | succ n ih => exact Memory.write_wf _ _ ih

/-- A write lists no address but its own and those listed before. -/
theorem Memory.mem_write {m : Memory} {a : Nat} {v : Byte} {c : Host.Cell} (h : c ∈ m.write a v) :
    c.1 = a ∨ c ∈ m := by
  induction m with
  | nil => simp [Memory.write] at h; simp [h]
  | cons d m ih =>
    obtain ⟨k, w⟩ := d
    unfold Memory.write at h
    split at h
    · rcases List.mem_cons.mp h with rfl | h
      · exact .inl rfl
      · exact .inr h
    · split at h
      · rcases List.mem_cons.mp h with rfl | h
        · exact .inl rfl
        · exact .inr (List.mem_cons_of_mem _ h)
      · rcases List.mem_cons.mp h with rfl | h
        · exact .inr List.mem_cons_self
        · exact (ih h).imp id (List.mem_cons_of_mem _)

theorem Memory.mem_writeBytes {m : Memory} {a n : Nat} {v : Word} {c : Host.Cell} (h : c ∈ m.writeBytes a n v) :
    (a ≤ c.1 ∧ c.1 < a + n) ∨ c ∈ m := by
  induction n generalizing m v with
  | zero => exact .inr h
  | succ n ih =>
    rcases ih h with h | h
    · left; omega
    · rcases Memory.mem_write h with h | h
      · left; omega
      · exact .inr h

theorem Memory.mem_zero {m : Memory} {a n : Nat} {c : Host.Cell} (h : c ∈ m.zero a n) :
    (a ≤ c.1 ∧ c.1 < a + n) ∨ c ∈ m := by
  induction n with
  | zero => exact .inr h
  | succ n ih =>
    rcases Memory.mem_write h with h | h
    · left; omega
    · rcases ih h with h | h
      · left; omega
      · exact .inr h

/-- What `MemWrite` leaves alone: every byte outside its `n` bytes. -/
theorem Memory.read_writeBytes_other (m : Memory) {a n b : Nat} (v : Word) (h : b < a ∨ a + n ≤ b) :
    (m.writeBytes a n v).read b = m.read b := by
  induction n generalizing m v with
  | zero => rfl
  | succ n ih =>
    have h' : b < a ∨ a + n ≤ b := by omega
    have hb : b ≠ a + n := by omega
    rw [Memory.writeBytes, ih _ _ h', Memory.read_write_other _ _ hb]

theorem Memory.read_zero (m : Memory) (a n b : Nat) :
    (m.zero a n).read b = if a ≤ b ∧ b < a + n then 0 else m.read b := by
  induction n with
  | zero => simp [Memory.zero]
  | succ n ih =>
    rw [Memory.zero, Memory.read_write, ih]
    by_cases h : b = a + n
    · simp [h]
    · have h' : (a ≤ b ∧ b < a + (n + 1)) ↔ (a ≤ b ∧ b < a + n) := by omega
      simp [h, h']

/-- `MemRead` depends on its `n` bytes only. -/
theorem Memory.readBytes_congr {m m' : Memory} {a n : Nat} (h : ∀ b, a ≤ b → b < a + n → m.read b = m'.read b) :
    m.readBytes a n = m'.readBytes a n := by
  induction n with
  | zero => rfl
  | succ n ih =>
    rw [Memory.readBytes, Memory.readBytes, ih (fun b h1 h2 => h b h1 (by omega)), h (a + n) (by omega) (by omega)]

theorem Memory.readBytes_one (m : Memory) (a : Nat) : m.readBytes a 1 = (m.read a).setWidth 32 := by
  simp [Memory.readBytes]

/-- 20_memory.md R40: a 2-byte container is big-endian. -/
theorem Memory.readBytes_two (m : Memory) (a : Nat) :
    m.readBytes a 2 = ((m.read a).setWidth 32 <<< 8) ||| (m.read (a + 1)).setWidth 32 := by
  simp [Memory.readBytes]

/-- 20_memory.md R40: a 4-byte container is big-endian. -/
theorem Memory.readBytes_four (m : Memory) (a : Nat) :
    m.readBytes a 4 = m.read a ++ m.read (a + 1) ++ m.read (a + 2) ++ m.read (a + 3) := by
  apply BitVec.eq_of_getLsbD_eq
  intro i hi
  simp only [Memory.readBytes, BitVec.getLsbD_or, BitVec.getLsbD_shiftLeft, BitVec.getLsbD_setWidth,
    BitVec.getLsbD_append, Nat.add_zero]
  interval_cases i <;> simp

/-- The byte `MemWrite` puts at offset `i` of its container (00_scope.md R14). -/
theorem Memory.read_writeBytes_at (m : Memory) (a n i : Nat) (v : Word) (hi : i < n) :
    (m.writeBytes a n v).read (a + i) = (v >>> (8 * (n - 1 - i))).setWidth 8 := by
  induction n generalizing m v with
  | zero => omega
  | succ n ih =>
    rw [Memory.writeBytes]
    by_cases h : i = n
    · subst h
      rw [Memory.read_writeBytes_other _ _ (Or.inr (by omega)), Memory.read_write_same]
      simp
    · rw [ih _ _ (by omega), ← BitVec.shiftRight_add]
      congr 2
      omega

end Sys2Proof.Machine
end

