-- ==== Sys2Proof/Laws/State.lean ====
section
/-!
SUPPORT. What each update of the state does to each field, so that no later proof unfolds a record update.
-/

namespace Sys2Proof.Machine

/-- `HDR_SIZE` is 12 (00_scope.md R9). -/
@[simp] theorem hdrSize_eq : hdrSize = 12 := rfl

variable (s : State)

@[simp] theorem State.setMem_mem (m : Memory) : (s.setMem m).mem = m := rfl
@[simp] theorem State.setMem_base (m : Memory) : (s.setMem m).base = s.base := rfl
@[simp] theorem State.setMem_len (m : Memory) : (s.setMem m).len = s.len := rfl
@[simp] theorem State.setMem_cfg (m : Memory) : (s.setMem m).cfg = s.cfg := rfl
@[simp] theorem State.setMem_port (m : Memory) : (s.setMem m).port = s.port := rfl
@[simp] theorem State.setMem_host (m : Memory) : (s.setMem m).host = s.host := rfl
@[simp] theorem State.setMem_responses (m : Memory) : (s.setMem m).responses = s.responses := rfl

@[simp] theorem State.setBinding_mem (b l : Word) : (s.setBinding b l).mem = s.mem := rfl
@[simp] theorem State.setBinding_base (b l : Word) : (s.setBinding b l).base = b := rfl
@[simp] theorem State.setBinding_len (b l : Word) : (s.setBinding b l).len = l := rfl
@[simp] theorem State.setBinding_cfg (b l : Word) : (s.setBinding b l).cfg = s.cfg := rfl
@[simp] theorem State.setBinding_port (b l : Word) : (s.setBinding b l).port = s.port := rfl
@[simp] theorem State.setBinding_host (b l : Word) : (s.setBinding b l).host = s.host := rfl
@[simp] theorem State.setBinding_responses (b l : Word) : (s.setBinding b l).responses = s.responses := rfl

@[simp] theorem State.setPort_mem (ws : List Word) : (s.setPort ws).mem = s.mem := rfl
@[simp] theorem State.setPort_base (ws : List Word) : (s.setPort ws).base = s.base := rfl
@[simp] theorem State.setPort_len (ws : List Word) : (s.setPort ws).len = s.len := rfl
@[simp] theorem State.setPort_cfg (ws : List Word) : (s.setPort ws).cfg = s.cfg := rfl
@[simp] theorem State.setPort_port (ws : List Word) : (s.setPort ws).port = ws := rfl
@[simp] theorem State.setPort_host (ws : List Word) : (s.setPort ws).host = s.host := rfl
@[simp] theorem State.setPort_responses (ws : List Word) : (s.setPort ws).responses = s.responses := rfl

@[simp] theorem State.setHost_mem (h : List HostAction) : (s.setHost h).mem = s.mem := rfl
@[simp] theorem State.setHost_base (h : List HostAction) : (s.setHost h).base = s.base := rfl
@[simp] theorem State.setHost_len (h : List HostAction) : (s.setHost h).len = s.len := rfl
@[simp] theorem State.setHost_cfg (h : List HostAction) : (s.setHost h).cfg = s.cfg := rfl
@[simp] theorem State.setHost_port (h : List HostAction) : (s.setHost h).port = s.port := rfl
@[simp] theorem State.setHost_host (h : List HostAction) : (s.setHost h).host = h := rfl
@[simp] theorem State.setHost_responses (h : List HostAction) : (s.setHost h).responses = s.responses := rfl

@[simp] theorem State.respond_mem (r : Response) : (s.respond r).mem = s.mem := rfl
@[simp] theorem State.respond_base (r : Response) : (s.respond r).base = s.base := rfl
@[simp] theorem State.respond_len (r : Response) : (s.respond r).len = s.len := rfl
@[simp] theorem State.respond_cfg (r : Response) : (s.respond r).cfg = s.cfg := rfl
@[simp] theorem State.respond_port (r : Response) : (s.respond r).port = s.port := rfl
@[simp] theorem State.respond_host (r : Response) : (s.respond r).host = s.host := rfl
@[simp] theorem State.respond_responses (r : Response) : (s.respond r).responses = s.responses ++ [r] := rfl

@[simp] theorem State.raise_mem (st : Status) : (s.raise st).mem = s.mem := rfl
@[simp] theorem State.raise_base (st : Status) : (s.raise st).base = s.base := rfl
@[simp] theorem State.raise_len (st : Status) : (s.raise st).len = s.len := rfl
@[simp] theorem State.raise_cfg (st : Status) : (s.raise st).cfg = s.cfg := rfl
@[simp] theorem State.raise_port (st : Status) : (s.raise st).port = s.port := rfl
@[simp] theorem State.raise_host (st : Status) : (s.raise st).host = s.host := rfl
@[simp] theorem State.raise_responses (st : Status) : (s.raise st).responses = s.responses ++ [{ st := st }] := rfl

@[simp] theorem State.applyReset_mem : s.applyReset.mem = s.mem := rfl
@[simp] theorem State.applyReset_base : s.applyReset.base = 0 := rfl
@[simp] theorem State.applyReset_len : s.applyReset.len = 0 := rfl
@[simp] theorem State.applyReset_cfg : s.applyReset.cfg = s.cfg := rfl
@[simp] theorem State.applyReset_port : s.applyReset.port = s.port := rfl
@[simp] theorem State.applyReset_host : s.applyReset.host = s.host := rfl
@[simp] theorem State.applyReset_responses : s.applyReset.responses = s.responses := rfl

@[simp] theorem State.zeroWindow_mem : s.zeroWindow.mem = s.mem.zero s.base.toNat hdrSize := rfl
@[simp] theorem State.zeroWindow_base : s.zeroWindow.base = s.base := rfl
@[simp] theorem State.zeroWindow_len : s.zeroWindow.len = s.len := rfl
@[simp] theorem State.zeroWindow_cfg : s.zeroWindow.cfg = s.cfg := rfl
@[simp] theorem State.zeroWindow_port : s.zeroWindow.port = s.port := rfl
@[simp] theorem State.zeroWindow_host : s.zeroWindow.host = s.host := rfl
@[simp] theorem State.zeroWindow_responses : s.zeroWindow.responses = s.responses := rfl

@[simp] theorem State.putField_base (f : Field) (v : Word) : (s.putField f v).base = s.base := rfl
@[simp] theorem State.putField_len (f : Field) (v : Word) : (s.putField f v).len = s.len := rfl
@[simp] theorem State.putField_cfg (f : Field) (v : Word) : (s.putField f v).cfg = s.cfg := rfl
@[simp] theorem State.putField_port (f : Field) (v : Word) : (s.putField f v).port = s.port := rfl
@[simp] theorem State.putField_host (f : Field) (v : Word) : (s.putField f v).host = s.host := rfl
@[simp] theorem State.putField_responses (f : Field) (v : Word) : (s.putField f v).responses = s.responses := rfl

theorem State.putField_mem (f : Field) (v : Word) :
    (s.putField f v).mem = s.mem.writeBytes (s.base.toNat + f.off) f.size
      (f.insert (s.mem.readBytes (s.base.toNat + f.off) f.size) v) := rfl

@[simp] theorem State.buildHeader_base (opcode se mig pad pkey qpn ack psn : Word) :
    (s.buildHeader opcode se mig pad pkey qpn ack psn).base = s.base := by
  simp [State.buildHeader]

@[simp] theorem State.buildHeader_len (opcode se mig pad pkey qpn ack psn : Word) :
    (s.buildHeader opcode se mig pad pkey qpn ack psn).len = s.len := by
  simp [State.buildHeader]

@[simp] theorem State.buildHeader_cfg (opcode se mig pad pkey qpn ack psn : Word) :
    (s.buildHeader opcode se mig pad pkey qpn ack psn).cfg = s.cfg := by
  simp [State.buildHeader]

@[simp] theorem State.buildHeader_port (opcode se mig pad pkey qpn ack psn : Word) :
    (s.buildHeader opcode se mig pad pkey qpn ack psn).port = s.port := by
  simp [State.buildHeader]

@[simp] theorem State.buildHeader_host (opcode se mig pad pkey qpn ack psn : Word) :
    (s.buildHeader opcode se mig pad pkey qpn ack psn).host = s.host := by
  simp [State.buildHeader]

@[simp] theorem State.buildHeader_responses (opcode se mig pad pkey qpn ack psn : Word) :
    (s.buildHeader opcode se mig pad pkey qpn ack psn).responses = s.responses := by
  simp [State.buildHeader]

end Sys2Proof.Machine
end

