-- ==== Sys2Proof/Laws/Ops.lean ====
section
/-!
SUPPORT. One lemma for each shared operation, saying what it can do; later proofs cite these and unfold none of them.
-/

namespace Sys2Proof.Machine

theorem State.windowOk_iff (s : State) : s.windowOk = true ↔ 12 ≤ s.len.toNat := by
  simp [State.windowOk, hdrSize]

theorem State.fits_iff (s : State) (a n : Nat) : s.fits a n = true ↔ a + n ≤ s.cfg.arenaSize.val := by
  simp [State.fits]

/-- Everything a window access can do (10_state.md R22; log entry 6). -/
theorem State.onWindow_cases (s t : State) :
    (s.len.toNat < 12 ∧ s.onWindow t = .next (s.raise .shortWindow)) ∨
    (12 ≤ s.len.toNat ∧ s.base.toNat + 12 ≤ s.cfg.arenaSize.val ∧ s.onWindow t = .next t) ∨
    (12 ≤ s.len.toNat ∧ s.cfg.arenaSize.val < s.base.toNat + 12 ∧ s.onWindow t = .fault .windowOutsideArena) := by
  unfold State.onWindow
  by_cases h : 12 ≤ s.len.toNat
  · by_cases h' : s.base.toNat + 12 ≤ s.cfg.arenaSize.val
    · right; left
      simp [State.windowOk, State.fits, hdrSize, h, h']
    · right; right
      have : s.cfg.arenaSize.val < s.base.toNat + 12 := by omega
      simp [State.windowOk, State.fits, hdrSize, h, this]
  · left
    have : s.len.toNat < 12 := by omega
    simp [State.windowOk, hdrSize, h, this]

/-- A window access on a short window (60_exceptions.md R152). -/
theorem State.onWindow_short {s : State} (t : State) (h : s.len.toNat < 12) :
    s.onWindow t = .next (s.raise .shortWindow) := by
  rcases s.onWindow_cases t with ⟨_, e⟩ | ⟨h', _⟩ | ⟨h', _⟩
  · exact e
  · omega
  · omega

/-- A window access on a whole window inside the arena. -/
theorem State.onWindow_bound {s : State} (t : State) (h : 12 ≤ s.len.toNat)
    (hb : s.base.toNat + s.len.toNat ≤ s.cfg.arenaSize.val) : s.onWindow t = .next t := by
  rcases s.onWindow_cases t with ⟨h', _⟩ | ⟨_, _, e⟩ | ⟨_, h', _⟩
  · omega
  · exact e
  · omega

/-- A field lies inside the window (10_state.md R23). -/
theorem Field.span_le (f : Field) : f.off + f.size ≤ 12 := by
  cases f <;> decide

/-- Writing a field leaves every byte outside its container alone (42_set.md R112). -/
theorem State.read_putField_other (s : State) (f : Field) (v : Word) {a : Nat}
    (h : a < s.base.toNat + f.off ∨ s.base.toNat + f.off + f.size ≤ a) :
    (s.putField f v).mem.read a = s.mem.read a :=
  Memory.read_writeBytes_other _ _ h

theorem State.putField_wf {s : State} (f : Field) (v : Word) (h : s.mem.wf = true) :
    (s.putField f v).mem.wf = true :=
  Memory.writeBytes_wf _ _ _ h

/-- Writing a field lists no address outside the window. -/
theorem State.mem_putField {s : State} {f : Field} {v : Word} {c : Host.Cell} (h : c ∈ (s.putField f v).mem) :
    (s.base.toNat ≤ c.1 ∧ c.1 < s.base.toNat + 12) ∨ c ∈ s.mem := by
  have := f.span_le
  rcases Memory.mem_writeBytes h with h | h
  · left; omega
  · exact .inr h

end Sys2Proof.Machine
end

