-- ==== Sys2Proof/Laws/Exec.lean ====
section
/-!
SUPPORT. Said once: what each shape of command is, and everything a command that answers a next state can have done.
-/

namespace Sys2Proof.Machine

/-- Each command is one of six shapes: a GET; a SET or CLR; BIND; BUILD; PARSE_NEXT; or an answer that reads the parameters
only and changes nothing. -/
theorem exec_shape (i : Instr) :
    (∃ f, accessesWindow i = true ∧ ∀ s, exec i s = readField f s) ∨
    (∃ f v, accessesWindow i = true ∧ ∀ s, exec i s = writeField f v s) ∨
    (∃ base len, i = .bind base len) ∨
    (∃ base o se mig pad pkey qpn ack psn, i = .build base o se mig pad pkey qpn ack psn) ∨
    i = .parseNext ∨
    (accessesWindow i = false ∧ i ≠ .parseNext ∧ ∃ r : Config → Response,
      (∀ c, (r c).st = .ok) ∧ ∀ s, exec i s = .next (s.respond (r s.cfg))) := by
  cases i
  case bind base len => exact .inr (.inr (.inl ⟨base, len, rfl⟩))
  case build => exact .inr (.inr (.inr (.inl ⟨_, _, _, _, _, _, _, _, _, rfl⟩)))
  case parseNext => exact .inr (.inr (.inr (.inr (.inl rfl))))
  case calcFields =>
    exact .inr (.inr (.inr (.inr (.inr ⟨rfl, by simp, fun _ => {}, fun _ => rfl, fun _ => rfl⟩))))
  case validate base len =>
    exact .inr (.inr (.inr (.inr (.inr ⟨rfl, by simp, fun _ => { f := validFlag len }, fun _ => rfl, fun _ => rfl⟩))))
  case isIbPort port =>
    exact .inr (.inr (.inr (.inr (.inr ⟨rfl, by simp, fun _ => { f := ibPortFlag port }, fun _ => rfl, fun _ => rfl⟩))))
  case hdrLen =>
    exact .inr (.inr (.inr (.inr (.inr
      ⟨rfl, by simp, fun _ => { d0 := BitVec.ofNat 32 hdrSize }, fun _ => rfl, fun _ => rfl⟩))))
  case osiLayer =>
    exact .inr (.inr (.inr (.inr (.inr ⟨rfl, by simp, fun c => { d0 := c.osiTransport }, fun _ => rfl, fun _ => rfl⟩))))
  all_goals first
    | exact .inl ⟨_, rfl, fun _ => rfl⟩
    | exact .inr (.inl ⟨_, _, rfl, fun _ => rfl⟩)

/-- A GET gives one response and changes nothing. -/
theorem readField_next {f : Field} {s t : State} (h : readField f s = .next t) :
    ∃ r : Response, t = s.respond r ∧ (r.st ≠ .ok → r.f = false ∧ r.d0 = 0 ∧ r.d1 = 0) := by
  rcases s.onWindow_cases (s.respond { d0 := s.getField f }) with ⟨_, e⟩ | ⟨_, _, e⟩ | ⟨_, _, e⟩
  · rw [readField, e] at h; cases h; exact ⟨_, rfl, by simp⟩
  · rw [readField, e] at h; cases h; exact ⟨_, rfl, by simp⟩
  · rw [readField, e] at h; cases h

/-- A SET or CLR gives the fault response, or writes its field inside the arena and answers `OK`. -/
theorem writeField_next {f : Field} {v : Word} {s t : State} (h : writeField f v s = .next t) :
    t = s.raise .shortWindow ∨
    (12 ≤ s.len.toNat ∧ s.base.toNat + 12 ≤ s.cfg.arenaSize.val ∧ t = (s.putField f v).respond {}) := by
  rcases s.onWindow_cases ((s.putField f v).respond {}) with ⟨_, e⟩ | ⟨h1, h2, e⟩ | ⟨_, _, e⟩
  · rw [writeField, e] at h; cases h; exact .inl rfl
  · rw [writeField, e] at h; cases h; exact .inr ⟨h1, h2, rfl⟩
  · rw [writeField, e] at h; cases h

/-- Everything a command can have done when it answers a next state: only given a response; written one field of the bound
window; bound a buffer; or bound and built a header. -/
theorem exec_next {i : Instr} {s t : State} (h : exec i s = .next t) :
    (∃ r : Response, t = s.respond r ∧ (r.st ≠ .ok → r.f = false ∧ r.d0 = 0 ∧ r.d1 = 0)) ∨
    (accessesWindow i = true ∧ 12 ≤ s.len.toNat ∧ s.base.toNat + 12 ≤ s.cfg.arenaSize.val ∧
      ∃ f v, t = (s.putField f v).respond {}) ∨
    (∃ base len, i = .bind base len ∧ base.toNat + len.toNat ≤ s.cfg.arenaSize.val ∧
      t = (s.setBinding base len).respond {}) ∨
    (∃ base o se mig pad pkey qpn ack psn, i = .build base o se mig pad pkey qpn ack psn ∧
      base.toNat + 12 ≤ s.cfg.arenaSize.val ∧
      t = ((s.setBinding base (BitVec.ofNat 32 hdrSize)).buildHeader o se mig pad pkey qpn ack psn).respond {}) := by
  rcases exec_shape i with ⟨f, _, hx⟩ | ⟨f, v, ha, hx⟩ | ⟨base, len, rfl⟩ |
    ⟨base, o, se, mig, pad, pkey, qpn, ack, psn, rfl⟩ | rfl | ⟨_, _, r, hr, hx⟩
  · exact .inl (readField_next ((hx s).symm.trans h))
  · rcases writeField_next ((hx s).symm.trans h) with rfl | ⟨h1, h2, rfl⟩
    · exact .inl ⟨_, rfl, by simp⟩
    · exact .inr (.inl ⟨ha, h1, h2, f, v, rfl⟩)
  · rw [exec, execBind] at h
    injection h with h
    subst h
    split
    · rename_i hf
      exact .inr (.inr (.inl ⟨_, _, rfl, (s.fits_iff ..).mp hf, rfl⟩))
    · exact .inl ⟨_, rfl, by simp⟩
  · rw [exec, execBuild] at h
    injection h with h
    subst h
    split
    · rename_i hf
      exact .inr (.inr (.inr ⟨_, _, _, _, _, _, _, _, _, rfl, (s.fits_iff ..).mp hf, rfl⟩))
    · exact .inl ⟨_, rfl, by simp⟩
  · rw [exec, execParseNext] at h
    injection h with h
    subst h
    split
    · refine .inl ⟨_, rfl, ?_⟩
      unfold State.payload
      split <;> simp
    · exact .inl ⟨_, rfl, by simp⟩
  · rw [hx] at h
    cases h
    exact .inl ⟨_, rfl, by simp [hr]⟩

end Sys2Proof.Machine
end

