-- ==== Sys2Proof/Laws/Fields.lean ====
section
/-!
SUPPORT. The fields bit by bit: what the masks, the extraction and the insertion of a field do to each bit of a container
(10_state.md R23, 41_get.md R92, 42_set.md R112), and a container read back after it was written.
-/

namespace Sys2Proof.Machine

theorem getLsbD_ones {w : Nat} (hw : w ≤ 32) (i : Nat) : (ones w).getLsbD i = decide (i < w) := by
  unfold ones
  rw [BitVec.getLsbD_ofNat, Nat.testBit_two_pow_sub_one]
  by_cases h : i < w
  · have : i < 32 := by omega
    simp [h, this]
  · simp [h]

/-- `trunc_w` keeps the low `w` bits (00_scope.md R16). -/
theorem getLsbD_trunc (w : Nat) (v : Word) (i : Nat) : (trunc w v).getLsbD i = (decide (i < w) && v.getLsbD i) := by
  unfold trunc
  by_cases hi : i < 32
  · simp [BitVec.getLsbD_setWidth, hi]
  · simp [BitVec.getLsbD_setWidth, hi, BitVec.getLsbD_of_ge v i (by omega)]

/-- 00_scope.md R16: "`trunc_w(v)` is `v mod 2^w`". -/
theorem trunc_eq_mod (w : Nat) (v : Word) : trunc w v = BitVec.ofNat 32 (v.toNat % 2 ^ w) := by
  apply BitVec.eq_of_toNat_eq
  simp only [trunc, BitVec.toNat_setWidth, BitVec.toNat_ofNat]

theorem Field.width_le (f : Field) : f.shift + f.width ≤ 8 * f.size ∧ 8 * f.size ≤ 32 := by
  cases f <;> decide

/-- A bit of a field's mask. -/
theorem Field.getLsbD_mask (f : Field) {i : Nat} (hi : i < 32) :
    f.mask.getLsbD i = decide (f.shift ≤ i ∧ i < f.shift + f.width) := by
  have hw := f.width_le
  rw [Field.mask, BitVec.getLsbD_shiftLeft, getLsbD_ones (by omega)]
  by_cases h : f.shift ≤ i <;> by_cases h' : i < f.shift + f.width <;> simp [hi, h, h'] <;> omega

/-- A bit of an extracted field: right-aligned, zero above its width. -/
theorem Field.getLsbD_extract (f : Field) (c : Word) (i : Nat) :
    (f.extract c).getLsbD i = (decide (i < f.width) && c.getLsbD (f.shift + i)) := by
  have hw := f.width_le
  rw [Field.extract, BitVec.getLsbD_and, BitVec.getLsbD_ushiftRight, getLsbD_ones (by omega), Bool.and_comm]

/-- A bit of a container after its field is replaced: the field's bits come from the operand, every other bit stays. -/
theorem Field.getLsbD_insert (f : Field) (c v : Word) {i : Nat} (hi : i < 32) :
    (f.insert c v).getLsbD i =
      if f.shift ≤ i ∧ i < f.shift + f.width then v.getLsbD (i - f.shift) else c.getLsbD i := by
  simp only [Field.insert, BitVec.getLsbD_or, BitVec.getLsbD_and, BitVec.getLsbD_not, BitVec.getLsbD_shiftLeft,
    getLsbD_trunc, f.getLsbD_mask hi]
  by_cases h : f.shift ≤ i
  · have e : i - f.shift < f.width ↔ i < f.shift + f.width := by omega
    by_cases h' : i < f.shift + f.width <;> simp [hi, h, h', e]
  · simp [hi, h]

/-- A bit of what `MemRead` returns: the byte at the lowest address is the most significant (00_scope.md R14). -/
theorem Memory.getLsbD_readBytes (m : Memory) (a : Nat) {n i : Nat} (hn : n ≤ 4) :
    (m.readBytes a n).getLsbD i = (decide (i < 8 * n) && (m.read (a + (n - 1 - i / 8))).getLsbD (i % 8)) := by
  induction n generalizing i with
  | zero => simp [Memory.readBytes]
  | succ n ih =>
    rw [Memory.readBytes, BitVec.getLsbD_or, BitVec.getLsbD_shiftLeft, BitVec.getLsbD_setWidth]
    by_cases h : i < 8
    · have h32 : i < 32 := by omega
      have h1 : i / 8 = 0 := by omega
      have h2 : i % 8 = i := by omega
      have h3 : i < 8 * (n + 1) := by omega
      simp [h, h32, h1, h2, h3]
    · rw [ih (by omega)]
      have h1 : n - 1 - (i - 8) / 8 = n + 1 - 1 - i / 8 := by omega
      have h2 : (i - 8) % 8 = i % 8 := by omega
      have h3 : (i - 8 < 8 * n) ↔ i < 8 * (n + 1) := by omega
      rw [h1, h2]
      by_cases h4 : i < 8 * (n + 1)
      · have h32 : i < 32 := by omega
        simp [h, h32, h3, h4, BitVec.getLsbD_of_ge _ i (by omega : 8 ≤ i)]
      · simp [h, h3, h4, BitVec.getLsbD_of_ge _ i (by omega : 8 ≤ i)]

/-- A container read back after `MemWrite`: the low `8n` bits of what was written. -/
theorem Memory.getLsbD_readBytes_writeBytes (m : Memory) (a : Nat) {n i : Nat} (v : Word) (hn : n ≤ 4) :
    ((m.writeBytes a n v).readBytes a n).getLsbD i = (decide (i < 8 * n) && v.getLsbD i) := by
  rw [Memory.getLsbD_readBytes _ _ hn]
  by_cases h : i < 8 * n
  · rw [Memory.read_writeBytes_at _ _ _ _ _ (by omega)]
    have h1 : 8 * (n - 1 - (n - 1 - i / 8)) + i % 8 = i := by omega
    have h2 : i % 8 < 8 := by omega
    simp [h, h1, h2]
  · simp [h]

/-- A bit of a field's value, in the header bytes that hold it (10_state.md R24). -/
theorem State.getLsbD_getField (s : State) (f : Field) (i : Nat) :
    (s.getField f).getLsbD i = (decide (i < f.width) &&
      (s.headerByte (f.off + (f.size - 1 - (f.shift + i) / 8))).getLsbD ((f.shift + i) % 8)) := by
  have hw := f.width_le
  rw [State.getField, Field.getLsbD_extract, Memory.getLsbD_readBytes _ _ (by omega)]
  by_cases hi : i < f.width
  · have hc : f.shift + i < 8 * f.size := by omega
    simp [hi, hc, State.headerByte, Nat.add_assoc]
  · simp [hi]

/-- A bit of a byte of the container after a field is written. -/
theorem State.getLsbD_read_putField_at (s : State) (f : Field) (v : Word) {k i : Nat} (hk : k < f.size) (hi : i < 8) :
    ((s.putField f v).mem.read (s.base.toNat + f.off + k)).getLsbD i =
      if f.shift ≤ 8 * (f.size - 1 - k) + i ∧ 8 * (f.size - 1 - k) + i < f.shift + f.width then
        v.getLsbD (8 * (f.size - 1 - k) + i - f.shift)
      else (s.headerByte (f.off + k)).getLsbD i := by
  have hw := f.width_le
  rw [State.putField_mem, Memory.read_writeBytes_at _ _ _ _ _ hk, BitVec.getLsbD_setWidth, BitVec.getLsbD_ushiftRight,
    Field.getLsbD_insert _ _ _ (by omega), Memory.getLsbD_readBytes _ _ (by omega)]
  have e1 : 8 * (f.size - 1 - k) + i < 8 * f.size := by omega
  have e2 : f.size - 1 - (8 * (f.size - 1 - k) + i) / 8 = k := by omega
  have e3 : (8 * (f.size - 1 - k) + i) % 8 = i := by omega
  simp [hi, e1, e2, e3, State.headerByte, Nat.add_assoc]

/-- Everything that writing a field does to memory, bit by bit: the field's bits come from the operand and every other
bit of every byte stays (42_set.md R112). -/
theorem State.getLsbD_read_putField (s : State) (f : Field) (v : Word) (x : Nat) {i : Nat} (hi : i < 8) :
    ((s.putField f v).mem.read x).getLsbD i =
      if s.base.toNat + f.off ≤ x ∧ x < s.base.toNat + f.off + f.size ∧
          f.shift ≤ 8 * (f.size - 1 - (x - (s.base.toNat + f.off))) + i ∧
          8 * (f.size - 1 - (x - (s.base.toNat + f.off))) + i < f.shift + f.width then
        v.getLsbD (8 * (f.size - 1 - (x - (s.base.toNat + f.off))) + i - f.shift)
      else (s.mem.read x).getLsbD i := by
  by_cases h : s.base.toNat + f.off ≤ x ∧ x < s.base.toNat + f.off + f.size
  · have e : x = s.base.toNat + f.off + (x - (s.base.toNat + f.off)) := by omega
    have hb := s.getLsbD_read_putField_at f v (k := x - (s.base.toNat + f.off)) (by omega) hi
    rw [← e] at hb
    rw [hb, State.headerByte, ← Nat.add_assoc, ← e]
    simp [h.1, h.2]
  · rw [s.read_putField_other f v (by omega), if_neg (by omega)]

end Sys2Proof.Machine
end

