-- ==== Sys2Proof/Laws/PerInstr.lean ====
section
/-!
SUPPORT. Statements about every command as syntax, one lemma per constructor: the encoder and R64's list of opcodes and
lengths, written apart, agree.
-/

/-- The words of the command are one whole legal command by 30_encoding.md R62 to R64 and R68. -/
def Sys2Proof.Laws.EncodingLegal.Statement (i : Sys2Proof.Instr) : Prop :=
  Sys2Proof.WellFormed.command (Sys2Proof.encode i) = true

namespace Sys2Proof.Laws.EncodingLegal

/-- A command is legal where R64's list gives its opcode its number of words. -/
theorem of_opcodeWords {i : Instr} {op n : Nat} (ho : i.opcode = op) (hn : i.operands.length + 1 = n)
    (h : (WellFormed.header (headerWord op) && opcodeWords.lookup ((headerWord op).toNat / 2 ^ 24) == some n) = true) :
    Statement i := by
  subst ho hn
  exact h

theorem calcFields : Statement .calcFields :=
  of_opcodeWords (op := 0x00) (n := 1) rfl rfl (by decide)
theorem bind (base len : Sys2Proof.Word) : Statement (.bind base len) :=
  of_opcodeWords (op := 0x01) (n := 3) rfl rfl (by decide)
theorem build (base opcode se mig pad pkey qpn ack psn : Sys2Proof.Word) : Statement (.build base opcode se mig pad pkey qpn ack psn) :=
  of_opcodeWords (op := 0x02) (n := 10) rfl rfl (by decide)
theorem validate (base len : Sys2Proof.Word) : Statement (.validate base len) :=
  of_opcodeWords (op := 0x03) (n := 3) rfl rfl (by decide)
theorem isIbPort (port : Sys2Proof.Word) : Statement (.isIbPort port) :=
  of_opcodeWords (op := 0x04) (n := 2) rfl rfl (by decide)
theorem hdrLen : Statement .hdrLen :=
  of_opcodeWords (op := 0x05) (n := 1) rfl rfl (by decide)
theorem parseNext : Statement .parseNext :=
  of_opcodeWords (op := 0x06) (n := 1) rfl rfl (by decide)
theorem osiLayer : Statement .osiLayer :=
  of_opcodeWords (op := 0x07) (n := 1) rfl rfl (by decide)
theorem getOpcode : Statement .getOpcode :=
  of_opcodeWords (op := 0x10) (n := 1) rfl rfl (by decide)
theorem getSe : Statement .getSe :=
  of_opcodeWords (op := 0x11) (n := 1) rfl rfl (by decide)
theorem getMig : Statement .getMig :=
  of_opcodeWords (op := 0x12) (n := 1) rfl rfl (by decide)
theorem getPad : Statement .getPad :=
  of_opcodeWords (op := 0x13) (n := 1) rfl rfl (by decide)
theorem getTver : Statement .getTver :=
  of_opcodeWords (op := 0x14) (n := 1) rfl rfl (by decide)
theorem getPkey : Statement .getPkey :=
  of_opcodeWords (op := 0x15) (n := 1) rfl rfl (by decide)
theorem getFecn : Statement .getFecn :=
  of_opcodeWords (op := 0x16) (n := 1) rfl rfl (by decide)
theorem getBecn : Statement .getBecn :=
  of_opcodeWords (op := 0x17) (n := 1) rfl rfl (by decide)
theorem getQpn : Statement .getQpn :=
  of_opcodeWords (op := 0x19) (n := 1) rfl rfl (by decide)
theorem getAck : Statement .getAck :=
  of_opcodeWords (op := 0x1A) (n := 1) rfl rfl (by decide)
theorem getPsn : Statement .getPsn :=
  of_opcodeWords (op := 0x1C) (n := 1) rfl rfl (by decide)
theorem setOpcode (val : Sys2Proof.Word) : Statement (.setOpcode val) :=
  of_opcodeWords (op := 0x20) (n := 2) rfl rfl (by decide)
theorem setSe (val : Sys2Proof.Word) : Statement (.setSe val) :=
  of_opcodeWords (op := 0x21) (n := 2) rfl rfl (by decide)
theorem setMig (val : Sys2Proof.Word) : Statement (.setMig val) :=
  of_opcodeWords (op := 0x22) (n := 2) rfl rfl (by decide)
theorem setPad (val : Sys2Proof.Word) : Statement (.setPad val) :=
  of_opcodeWords (op := 0x23) (n := 2) rfl rfl (by decide)
theorem setTver (val : Sys2Proof.Word) : Statement (.setTver val) :=
  of_opcodeWords (op := 0x24) (n := 2) rfl rfl (by decide)
theorem setPkey (val : Sys2Proof.Word) : Statement (.setPkey val) :=
  of_opcodeWords (op := 0x25) (n := 2) rfl rfl (by decide)
theorem setFecn (val : Sys2Proof.Word) : Statement (.setFecn val) :=
  of_opcodeWords (op := 0x26) (n := 2) rfl rfl (by decide)
theorem setBecn (val : Sys2Proof.Word) : Statement (.setBecn val) :=
  of_opcodeWords (op := 0x27) (n := 2) rfl rfl (by decide)
theorem setQpn (val : Sys2Proof.Word) : Statement (.setQpn val) :=
  of_opcodeWords (op := 0x29) (n := 2) rfl rfl (by decide)
theorem setAck (val : Sys2Proof.Word) : Statement (.setAck val) :=
  of_opcodeWords (op := 0x2A) (n := 2) rfl rfl (by decide)
theorem setPsn (val : Sys2Proof.Word) : Statement (.setPsn val) :=
  of_opcodeWords (op := 0x2C) (n := 2) rfl rfl (by decide)
theorem clrResv6a : Statement .clrResv6a :=
  of_opcodeWords (op := 0x38) (n := 1) rfl rfl (by decide)
theorem clrResv7 : Statement .clrResv7 :=
  of_opcodeWords (op := 0x3B) (n := 1) rfl rfl (by decide)

end Sys2Proof.Laws.EncodingLegal
end

