-- ==== Sys2Proof/Tests/Slice0.lean ====
section
/-!
SUPPORT. The model's own tests, each on one step and with its expected result from 95_test_vectors.md or from the table of
30_encoding.md R64, and for each statement with hypotheses a witness that concrete states and operands meet them.
-/

namespace Sys2Proof.Tests

open Sys2Proof.Machine

/-! ### Small states -/

/-- The bytes listed one after another from address `a`. -/
def bytesAt : Nat → List Byte → Memory
  | _, [] => []
  | a, b :: bs => (a, b) :: bytesAt (a + 1) bs

/-- A block bound to `base` and `len`, with the given bytes from `base` on, and the parameters of 95_test_vectors.md:
`ARENA_SIZE = 0x1000`, `OSI_TRANSPORT = 4`. -/
def boundTo (base len : Word) (bytes : List Byte) : State where
  mem := bytesAt base.toNat bytes
  base := base
  len := len
  cfg := { arenaSize := 0x1000, osiTransport := 4 }
  port := []
  host := []
  responses := []

/-- The window S of 95_test_vectors.md. -/
def windowS : List Byte := [0x04, 0x6A, 0x12, 0x34, 0xBF, 0xAB, 0xCD, 0xEF, 0x7F, 0x00, 0x00, 0x01]

/-- The window F, all ones. -/
def windowF : List Byte := List.replicate 12 0xFF

/-- The window Z, all zeros. -/
def windowZ : List Byte := List.replicate 12 0

/-- The header of V6. -/
def windowV6 : List Byte := [0x0A, 0xA0, 0xFF, 0xFF, 0x00, 0x12, 0x34, 0x56, 0x80, 0x00, 0x00, 0xFF]

/-- S with four payload bytes, as in the programs P1 and P4. -/
def sample : State := boundTo 0x100 16 (windowS ++ [0xDE, 0xAD, 0xBE, 0xEF])

/-- The same bytes with eleven of them bound. -/
def short : State := { sample with len := 11 }

/-- The same bytes with twelve of them bound. -/
def exact : State := { sample with len := 12 }

/-- The same bytes with thirteen of them bound. -/
def longer : State := { sample with len := 13 }

/-- S bound at the last place it fits: `0xFF4 + 12 = 0x1000`. -/
def edge : State := boundTo 0xFF4 12 windowS

/-- S bound one byte further: `0xFF5 + 12 = 0x1001`. No step leads here (10_state.md R27). -/
def outside : State := { edge with base := 0xFF5 }

/-- S at an odd address (T1, corner case (e)). -/
def odd : State := boundTo 0x101 12 windowS

/-- The state after a next step. -/
def nextOf : Host.Outcome State Fault Refusal → Option State
  | .next t => some t
  | .fault _ => none
  | .refused _ => none

/-- The stop, where there is one. -/
def stopOf : Host.Outcome State Fault Refusal → Option Fault
  | .next _ => none
  | .fault r => some r
  | .refused _ => none

/-- The responses and all listed bytes after a command. -/
def after (i : Instr) (s : State) : Option (List Response × List Byte) :=
  (nextOf (exec i s)).map fun t => (t.responses, t.mem.map Prod.snd)

/-- The binding registers, the responses and all listed bytes after a command. -/
def boundAfter (i : Instr) (s : State) : Option (Word × Word × List Response × List Byte) :=
  (nextOf (exec i s)).map fun t => (t.base, t.len, t.responses, t.mem.map Prod.snd)

/-! ### Well-formed words: an ill-formed term for each check -/

/-- R61: a header word with a reserved bit set (T6: `10000001`, `38800000`). -/
theorem test_reservedZero_refuses :
    WellFormed.reservedZero 0x10000001 = false ∧ WellFormed.reservedZero 0x38800000 = false ∧
    WellFormed.reservedZero 0x10000000 = true := by decide

/-- R68: an opcode that is none of the 32 (T6: `18000000`, `08000000`). -/
theorem test_opcodeLegal_refuses :
    WellFormed.opcodeLegal 0x18000000 = false ∧ WellFormed.opcodeLegal 0x08000000 = false ∧
    WellFormed.opcodeLegal 0x19000000 = true := by decide

/-- R68: either check alone refuses the header word. -/
theorem test_header_refuses :
    WellFormed.header 0x23000007 = false ∧ WellFormed.header 0x1B000000 = false ∧ WellFormed.header 0x23000000 = true := by
  decide

/-- R62, R63: no word; an illegal header word; an operand too few; a word too many. -/
theorem test_command_refuses :
    WellFormed.command [] = false ∧ WellFormed.command [0x28000000, 1] = false ∧
    WellFormed.command [0x01000000, 0x100] = false ∧ WellFormed.command [0x10000000, 0] = false ∧
    WellFormed.command [0x01000000, 0x100, 16] = true := by decide

/-! ### Decoding: words written out from R64 -/

/-- R64, class 0: `w0[31:24]` is 0x00 to 0x07, with the operand words of V4, V5, V6 and V9. -/
theorem test_decode_block :
    decode [0x00000000] = .command .calcFields [] ∧
    decode [0x01000000, 0x100, 0x10] = .command (.bind 0x100 16) [] ∧
    decode [0x02000000, 0x200, 0x0A, 1, 0, 2, 0xFFFF, 0x123456, 1, 0xFF] = .command (.build 0x200 0x0A 1 0 2 0xFFFF 0x123456 1 0xFF) [] ∧
    decode [0x03000000, 0x123, 0xB] = .command (.validate 0x123 11) [] ∧
    decode [0x04000000, 0x12B7] = .command (.isIbPort 4791) [] ∧
    decode [0x05000000] = .command .hdrLen [] ∧
    decode [0x06000000] = .command .parseNext [] ∧
    decode [0x07000000] = .command .osiLayer [] := by decide

/-- R64, class 1: bits 31..28 are `0001`, bits 27..24 the field index of R66 (T1). -/
theorem test_decode_get :
    decode [0x10000000] = .command .getOpcode [] ∧
    decode [0x11000000] = .command .getSe [] ∧
    decode [0x12000000] = .command .getMig [] ∧
    decode [0x13000000] = .command .getPad [] ∧
    decode [0x14000000] = .command .getTver [] ∧
    decode [0x15000000] = .command .getPkey [] ∧
    decode [0x16000000] = .command .getFecn [] ∧
    decode [0x17000000] = .command .getBecn [] ∧
    decode [0x19000000] = .command .getQpn [] ∧
    decode [0x1A000000] = .command .getAck [] ∧
    decode [0x1C000000] = .command .getPsn [] := by decide

/-- R64, class 2: bits 31..28 are `0010`, bits 27..24 the field index, and one operand word (T2). -/
theorem test_decode_set :
    decode [0x20000000, 1] = .command (.setOpcode 1) [] ∧
    decode [0x21000000, 2] = .command (.setSe 2) [] ∧
    decode [0x22000000, 3] = .command (.setMig 3) [] ∧
    decode [0x23000000, 4] = .command (.setPad 4) [] ∧
    decode [0x24000000, 5] = .command (.setTver 5) [] ∧
    decode [0x25000000, 6] = .command (.setPkey 6) [] ∧
    decode [0x26000000, 7] = .command (.setFecn 7) [] ∧
    decode [0x27000000, 8] = .command (.setBecn 8) [] ∧
    decode [0x29000000, 10] = .command (.setQpn 10) [] ∧
    decode [0x2A000000, 11] = .command (.setAck 11) [] ∧
    decode [0x2C000000, 13] = .command (.setPsn 13) [] := by decide

/-- R64, class 3: bits 31..28 are `0011`, with f = 8 and 11 only (T3). -/
theorem test_decode_clear :
    decode [0x38000000] = .command .clrResv6a [] ∧
    decode [0x3B000000] = .command .clrResv7 [] := by decide

/-- One word bit by bit (R61, R64): `GET_QPN` is `0001` and f = `1001`, then 24 reserved zeros. -/
theorem test_decode_bits :
    decode [0b00011001000000000000000000000000] = .command .getQpn [] ∧
    decode [0b00111011000000000000000000000000] = .command .clrResv7 [] ∧
    decode [0b00100101000000000000000000000000, 0b11111111111111111] = .command (.setPkey 0x1FFFF) [] ∧
    decode [0b00000100000000000000000000000000, 0b1001010110111] = .command (.isIbPort 4791) [] := by decide

/-- T6: illegal opcodes of the four classes, each a command of one word. -/
theorem test_decode_illegal :
    (([0x08000000, 0x0F000000, 0x18000000, 0x1B000000, 0x1D000000, 0x1F000000, 0x28000000, 0x2B000000, 0x2D000000,
        0x30000000, 0x37000000, 0x39000000, 0x3A000000] : List Word).map fun w0 => decode [w0, 9]) =
      List.replicate 13 (.illegal [9]) := by decide

/-- T6: the other illegal opcodes, and legal opcodes with a reserved bit set. -/
theorem test_decode_illegal_reserved :
    (([0x3C000000, 0x3F000000, 0x40000000, 0x80000000, 0xFF000000, 0xFFFFFFFF, 0x10000001, 0x00000001, 0x38800000,
        0x23000007] : List Word).map fun w0 => decode [w0, 9]) = List.replicate 10 (.illegal [9]) := by decide

/-- R60: a command whose operand words are not all there has not started. -/
theorem test_decode_incomplete :
    decode [] = .incomplete ∧ decode [0x01000000, 0x100] = .incomplete ∧
    decode [0x02000000, 0x200, 0x0A, 1, 0, 2, 0xFFFF, 0x123456, 1] = .incomplete := by decide

/-- A table row's bits, the first word lowest: BIND's three words. -/
theorem test_decodeTableWord :
    decodeTableWord 96 0x00000010_00000100_01000000 = some (.bind 0x100 16) ∧
    decodeTableWord 32 0x19000000 = some .getQpn ∧ decodeTableWord 32 0x18000000 = none := by decide

/-- A placed command is what the next step runs, and it takes its own words only. -/
theorem test_withFetchWord :
    ((nextOf (step (sample.withFetchWord 32 0x23000000))).map fun t => (t.port, t.mem.map Prod.snd)) =
      some ([], [0x04, 0x4A] ++ (windowS ++ [0xDE, 0xAD, 0xBE, 0xEF]).drop 2) := by decide

/-! ### The GET commands (T1: on S, on F, on the header of V6) -/

theorem test_getOpcode :
    after .getOpcode (boundTo 0 12 windowS) = some ([{ d0 := 4 }], windowS) ∧
    after .getOpcode (boundTo 0 12 windowF) = some ([{ d0 := 0xFF }], windowF) ∧
    after .getOpcode (boundTo 0 12 windowV6) = some ([{ d0 := 0x0A }], windowV6) := by decide

theorem test_getSe :
    after .getSe (boundTo 0 12 windowS) = some ([{ d0 := 0 }], windowS) ∧
    after .getSe (boundTo 0 12 windowF) = some ([{ d0 := 1 }], windowF) ∧
    after .getSe (boundTo 0 12 windowV6) = some ([{ d0 := 1 }], windowV6) := by decide

theorem test_getMig :
    after .getMig (boundTo 0 12 windowS) = some ([{ d0 := 1 }], windowS) ∧
    after .getMig (boundTo 0 12 windowF) = some ([{ d0 := 1 }], windowF) ∧
    after .getMig (boundTo 0 12 windowV6) = some ([{ d0 := 0 }], windowV6) := by decide

theorem test_getPad :
    after .getPad (boundTo 0 12 windowS) = some ([{ d0 := 2 }], windowS) ∧
    after .getPad (boundTo 0 12 windowF) = some ([{ d0 := 3 }], windowF) ∧
    after .getPad (boundTo 0 12 windowV6) = some ([{ d0 := 2 }], windowV6) := by decide

theorem test_getTver :
    after .getTver (boundTo 0 12 windowS) = some ([{ d0 := 0xA }], windowS) ∧
    after .getTver (boundTo 0 12 windowF) = some ([{ d0 := 0xF }], windowF) ∧
    after .getTver (boundTo 0 12 windowV6) = some ([{ d0 := 0 }], windowV6) := by decide

theorem test_getPkey :
    after .getPkey (boundTo 0 12 windowS) = some ([{ d0 := 0x1234 }], windowS) ∧
    after .getPkey (boundTo 0 12 windowF) = some ([{ d0 := 0xFFFF }], windowF) ∧
    after .getPkey (boundTo 0 12 windowV6) = some ([{ d0 := 0xFFFF }], windowV6) := by decide

theorem test_getFecn :
    after .getFecn (boundTo 0 12 windowS) = some ([{ d0 := 1 }], windowS) ∧
    after .getFecn (boundTo 0 12 windowF) = some ([{ d0 := 1 }], windowF) ∧
    after .getFecn (boundTo 0 12 windowV6) = some ([{ d0 := 0 }], windowV6) := by decide

theorem test_getBecn :
    after .getBecn (boundTo 0 12 windowS) = some ([{ d0 := 0 }], windowS) ∧
    after .getBecn (boundTo 0 12 windowF) = some ([{ d0 := 1 }], windowF) ∧
    after .getBecn (boundTo 0 12 windowV6) = some ([{ d0 := 0 }], windowV6) := by decide

theorem test_getQpn :
    after .getQpn (boundTo 0 12 windowS) = some ([{ d0 := 0xABCDEF }], windowS) ∧
    after .getQpn (boundTo 0 12 windowF) = some ([{ d0 := 0xFFFFFF }], windowF) ∧
    after .getQpn (boundTo 0 12 windowV6) = some ([{ d0 := 0x123456 }], windowV6) := by decide

theorem test_getAck :
    after .getAck (boundTo 0 12 windowS) = some ([{ d0 := 0 }], windowS) ∧
    after .getAck (boundTo 0 12 windowF) = some ([{ d0 := 1 }], windowF) ∧
    after .getAck (boundTo 0 12 windowV6) = some ([{ d0 := 1 }], windowV6) := by decide

theorem test_getPsn :
    after .getPsn (boundTo 0 12 windowS) = some ([{ d0 := 1 }], windowS) ∧
    after .getPsn (boundTo 0 12 windowF) = some ([{ d0 := 0xFFFFFF }], windowF) ∧
    after .getPsn (boundTo 0 12 windowV6) = some ([{ d0 := 0xFF }], windowV6) := by decide

/-- T1, corner case (c): eleven bytes are no window, also for a byte that lies inside them. -/
theorem test_get_short :
    ∀ p ∈ dataFields, after p.1 short = some ([{ st := .shortWindow }], short.mem.map Prod.snd) := by decide

/-- T1, corner case (e): an odd base gives the same results. -/
theorem test_get_odd :
    after .getPkey odd = some ([{ d0 := 0x1234 }], windowS) ∧ after .getQpn odd = some ([{ d0 := 0xABCDEF }], windowS) ∧
    after .getPsn odd = some ([{ d0 := 1 }], windowS) := by decide

/-! ### The SET commands (T2: 0 on F, all ones on Z, `2^w + 1` on Z) -/

theorem test_setOpcode :
    after (.setOpcode 0) (boundTo 0 12 windowF) = some ([{}], [0x00, 0xFF, 0xFF, 0xFF, 0xFF, 0xFF, 0xFF, 0xFF, 0xFF, 0xFF, 0xFF, 0xFF]) ∧
    after (.setOpcode 0xFFFFFFFF) (boundTo 0 12 windowZ) = some ([{}], [0xFF, 0x00, 0x00, 0x00, 0x00, 0x00, 0x00, 0x00, 0x00, 0x00, 0x00, 0x00]) ∧
    after (.setOpcode 0x101) (boundTo 0 12 windowZ) = some ([{}], [0x01, 0x00, 0x00, 0x00, 0x00, 0x00, 0x00, 0x00, 0x00, 0x00, 0x00, 0x00]) := by decide

theorem test_setSe :
    after (.setSe 0) (boundTo 0 12 windowF) = some ([{}], [0xFF, 0x7F, 0xFF, 0xFF, 0xFF, 0xFF, 0xFF, 0xFF, 0xFF, 0xFF, 0xFF, 0xFF]) ∧
    after (.setSe 0xFFFFFFFF) (boundTo 0 12 windowZ) = some ([{}], [0x00, 0x80, 0x00, 0x00, 0x00, 0x00, 0x00, 0x00, 0x00, 0x00, 0x00, 0x00]) ∧
    after (.setSe 0x3) (boundTo 0 12 windowZ) = some ([{}], [0x00, 0x80, 0x00, 0x00, 0x00, 0x00, 0x00, 0x00, 0x00, 0x00, 0x00, 0x00]) := by decide

theorem test_setMig :
    after (.setMig 0) (boundTo 0 12 windowF) = some ([{}], [0xFF, 0xBF, 0xFF, 0xFF, 0xFF, 0xFF, 0xFF, 0xFF, 0xFF, 0xFF, 0xFF, 0xFF]) ∧
    after (.setMig 0xFFFFFFFF) (boundTo 0 12 windowZ) = some ([{}], [0x00, 0x40, 0x00, 0x00, 0x00, 0x00, 0x00, 0x00, 0x00, 0x00, 0x00, 0x00]) ∧
    after (.setMig 0x3) (boundTo 0 12 windowZ) = some ([{}], [0x00, 0x40, 0x00, 0x00, 0x00, 0x00, 0x00, 0x00, 0x00, 0x00, 0x00, 0x00]) := by decide

theorem test_setPad :
    after (.setPad 0) (boundTo 0 12 windowF) = some ([{}], [0xFF, 0xCF, 0xFF, 0xFF, 0xFF, 0xFF, 0xFF, 0xFF, 0xFF, 0xFF, 0xFF, 0xFF]) ∧
    after (.setPad 0xFFFFFFFF) (boundTo 0 12 windowZ) = some ([{}], [0x00, 0x30, 0x00, 0x00, 0x00, 0x00, 0x00, 0x00, 0x00, 0x00, 0x00, 0x00]) ∧
    after (.setPad 0x5) (boundTo 0 12 windowZ) = some ([{}], [0x00, 0x10, 0x00, 0x00, 0x00, 0x00, 0x00, 0x00, 0x00, 0x00, 0x00, 0x00]) := by decide

theorem test_setTver :
    after (.setTver 0) (boundTo 0 12 windowF) = some ([{}], [0xFF, 0xF0, 0xFF, 0xFF, 0xFF, 0xFF, 0xFF, 0xFF, 0xFF, 0xFF, 0xFF, 0xFF]) ∧
    after (.setTver 0xFFFFFFFF) (boundTo 0 12 windowZ) = some ([{}], [0x00, 0x0F, 0x00, 0x00, 0x00, 0x00, 0x00, 0x00, 0x00, 0x00, 0x00, 0x00]) ∧
    after (.setTver 0x11) (boundTo 0 12 windowZ) = some ([{}], [0x00, 0x01, 0x00, 0x00, 0x00, 0x00, 0x00, 0x00, 0x00, 0x00, 0x00, 0x00]) := by decide

theorem test_setPkey :
    after (.setPkey 0) (boundTo 0 12 windowF) = some ([{}], [0xFF, 0xFF, 0x00, 0x00, 0xFF, 0xFF, 0xFF, 0xFF, 0xFF, 0xFF, 0xFF, 0xFF]) ∧
    after (.setPkey 0xFFFFFFFF) (boundTo 0 12 windowZ) = some ([{}], [0x00, 0x00, 0xFF, 0xFF, 0x00, 0x00, 0x00, 0x00, 0x00, 0x00, 0x00, 0x00]) ∧
    after (.setPkey 0x10001) (boundTo 0 12 windowZ) = some ([{}], [0x00, 0x00, 0x00, 0x01, 0x00, 0x00, 0x00, 0x00, 0x00, 0x00, 0x00, 0x00]) := by decide

theorem test_setFecn :
    after (.setFecn 0) (boundTo 0 12 windowF) = some ([{}], [0xFF, 0xFF, 0xFF, 0xFF, 0x7F, 0xFF, 0xFF, 0xFF, 0xFF, 0xFF, 0xFF, 0xFF]) ∧
    after (.setFecn 0xFFFFFFFF) (boundTo 0 12 windowZ) = some ([{}], [0x00, 0x00, 0x00, 0x00, 0x80, 0x00, 0x00, 0x00, 0x00, 0x00, 0x00, 0x00]) ∧
    after (.setFecn 0x3) (boundTo 0 12 windowZ) = some ([{}], [0x00, 0x00, 0x00, 0x00, 0x80, 0x00, 0x00, 0x00, 0x00, 0x00, 0x00, 0x00]) := by decide

theorem test_setBecn :
    after (.setBecn 0) (boundTo 0 12 windowF) = some ([{}], [0xFF, 0xFF, 0xFF, 0xFF, 0xBF, 0xFF, 0xFF, 0xFF, 0xFF, 0xFF, 0xFF, 0xFF]) ∧
    after (.setBecn 0xFFFFFFFF) (boundTo 0 12 windowZ) = some ([{}], [0x00, 0x00, 0x00, 0x00, 0x40, 0x00, 0x00, 0x00, 0x00, 0x00, 0x00, 0x00]) ∧
    after (.setBecn 0x3) (boundTo 0 12 windowZ) = some ([{}], [0x00, 0x00, 0x00, 0x00, 0x40, 0x00, 0x00, 0x00, 0x00, 0x00, 0x00, 0x00]) := by decide

theorem test_setQpn :
    after (.setQpn 0) (boundTo 0 12 windowF) = some ([{}], [0xFF, 0xFF, 0xFF, 0xFF, 0xFF, 0x00, 0x00, 0x00, 0xFF, 0xFF, 0xFF, 0xFF]) ∧
    after (.setQpn 0xFFFFFFFF) (boundTo 0 12 windowZ) = some ([{}], [0x00, 0x00, 0x00, 0x00, 0x00, 0xFF, 0xFF, 0xFF, 0x00, 0x00, 0x00, 0x00]) ∧
    after (.setQpn 0x1000001) (boundTo 0 12 windowZ) = some ([{}], [0x00, 0x00, 0x00, 0x00, 0x00, 0x00, 0x00, 0x01, 0x00, 0x00, 0x00, 0x00]) := by decide

theorem test_setAck :
    after (.setAck 0) (boundTo 0 12 windowF) = some ([{}], [0xFF, 0xFF, 0xFF, 0xFF, 0xFF, 0xFF, 0xFF, 0xFF, 0x7F, 0xFF, 0xFF, 0xFF]) ∧
    after (.setAck 0xFFFFFFFF) (boundTo 0 12 windowZ) = some ([{}], [0x00, 0x00, 0x00, 0x00, 0x00, 0x00, 0x00, 0x00, 0x80, 0x00, 0x00, 0x00]) ∧
    after (.setAck 0x3) (boundTo 0 12 windowZ) = some ([{}], [0x00, 0x00, 0x00, 0x00, 0x00, 0x00, 0x00, 0x00, 0x80, 0x00, 0x00, 0x00]) := by decide

theorem test_setPsn :
    after (.setPsn 0) (boundTo 0 12 windowF) = some ([{}], [0xFF, 0xFF, 0xFF, 0xFF, 0xFF, 0xFF, 0xFF, 0xFF, 0xFF, 0x00, 0x00, 0x00]) ∧
    after (.setPsn 0xFFFFFFFF) (boundTo 0 12 windowZ) = some ([{}], [0x00, 0x00, 0x00, 0x00, 0x00, 0x00, 0x00, 0x00, 0x00, 0xFF, 0xFF, 0xFF]) ∧
    after (.setPsn 0x1000001) (boundTo 0 12 windowZ) = some ([{}], [0x00, 0x00, 0x00, 0x00, 0x00, 0x00, 0x00, 0x00, 0x00, 0x00, 0x00, 0x01]) := by decide

/-- T2, corner cases (b) and (c) and V3, with payload: dropped operand bits reach no neighbour, and bytes 12 to 15 stay. -/
theorem test_set_isolation :
    after (.setQpn 0x01000002) sample =
      some ([{}], [0x04, 0x6A, 0x12, 0x34, 0xBF, 0x00, 0x00, 0x02, 0x7F, 0x00, 0x00, 0x01, 0xDE, 0xAD, 0xBE, 0xEF]) ∧
    after (.setPsn 0xFFFFFFFF) sample =
      some ([{}], [0x04, 0x6A, 0x12, 0x34, 0xBF, 0xAB, 0xCD, 0xEF, 0x7F, 0xFF, 0xFF, 0xFF, 0xDE, 0xAD, 0xBE, 0xEF]) ∧
    after (.setFecn 0) sample =
      some ([{}], [0x04, 0x6A, 0x12, 0x34, 0x3F, 0xAB, 0xCD, 0xEF, 0x7F, 0x00, 0x00, 0x01, 0xDE, 0xAD, 0xBE, 0xEF]) := by
  decide

/-- T2, corner case (e): no byte is written while eleven bytes are bound. -/
theorem test_set_short :
    ∀ p ∈ dataFields, after (p.2.1 0xFFFFFFFF) short = some ([{ st := .shortWindow }], short.mem.map Prod.snd) := by decide

/-! ### The CLR commands (T3) -/

theorem test_clrResv6a :
    after .clrResv6a (boundTo 0 12 windowF) =
      some ([{}], [0xFF, 0xFF, 0xFF, 0xFF, 0xC0, 0xFF, 0xFF, 0xFF, 0xFF, 0xFF, 0xFF, 0xFF]) ∧
    after .clrResv6a (boundTo 0 12 windowS) =
      some ([{}], [0x04, 0x6A, 0x12, 0x34, 0x80, 0xAB, 0xCD, 0xEF, 0x7F, 0x00, 0x00, 0x01]) := by decide

theorem test_clrResv7 :
    after .clrResv7 (boundTo 0 12 windowF) =
      some ([{}], [0xFF, 0xFF, 0xFF, 0xFF, 0xFF, 0xFF, 0xFF, 0xFF, 0x80, 0xFF, 0xFF, 0xFF]) ∧
    after .clrResv7 (boundTo 0 12 windowS) =
      some ([{}], [0x04, 0x6A, 0x12, 0x34, 0xBF, 0xAB, 0xCD, 0xEF, 0x00, 0x00, 0x00, 0x01]) := by decide

/-- T3: `LEN < 12`, no byte written. -/
theorem test_clr_short :
    ∀ c ∈ clearCommands, after c short = some ([{ st := .shortWindow }], short.mem.map Prod.snd) := by decide

/-! ### Construction (T4) -/

/-- T4, BIND: accepted at the very end of the arena, empty, short; from `BASE = 0x100`, `LEN = 16`. -/
theorem test_bind_accepts :
    [boundAfter (.bind 0xFF4 12) sample, boundAfter (.bind 0x1000 0) sample, boundAfter (.bind 0 11) sample] =
      [some (0xFF4, 12, [{}], sample.mem.map Prod.snd), some (0x1000, 0, [{}], sample.mem.map Prod.snd),
       some (0, 11, [{}], sample.mem.map Prod.snd)] := by decide

/-- T4, BIND: refused one byte further, and where the sum would wrap. -/
theorem test_bind_refuses :
    boundAfter (.bind 0xFF5 12) sample = some (0x100, 16, [{ st := .badDescriptor }], sample.mem.map Prod.snd) ∧
    boundAfter (.bind 0xFFFFFFFF 0xFFFFFFFF) sample =
      some (0x100, 16, [{ st := .badDescriptor }], sample.mem.map Prod.snd) := by decide

/-- T4 and V6, BUILD over a region that held F: the rows "eight times `0xFFFFFFFF`", `0x64, 0, 1, 3, ...` and V6. -/
theorem test_build_accepts :
    [boundAfter (.build 0x10 0xFFFFFFFF 0xFFFFFFFF 0xFFFFFFFF 0xFFFFFFFF 0xFFFFFFFF 0xFFFFFFFF 0xFFFFFFFF 0xFFFFFFFF)
        (boundTo 0x10 20 (windowF ++ [0xAA])),
      boundAfter (.build 0x10 0x64 0 1 3 0x8001 0x800001 0 0x7FFFFE) (boundTo 0x10 20 (windowF ++ [0xAA])),
      boundAfter (.build 0x10 0x0A 1 0 2 0xFFFF 0x123456 1 0xFF) (boundTo 0x10 20 (windowF ++ [0xAA]))] =
    [some (0x10, 12, [{}], [0xFF, 0xF0, 0xFF, 0xFF, 0x00, 0xFF, 0xFF, 0xFF, 0x80, 0xFF, 0xFF, 0xFF, 0xAA]),
      some (0x10, 12, [{}], [0x64, 0x70, 0x80, 0x01, 0x00, 0x80, 0x00, 0x01, 0x00, 0x7F, 0xFF, 0xFE, 0xAA]),
      some (0x10, 12, [{}], windowV6 ++ [0xAA])] := by decide

/-- T4, BUILD: refused at `0xFF5` with nothing written, accepted at `0xFF4`. -/
theorem test_build_bounds :
    boundAfter (.build 0xFF5 0 0 0 0 0 0 0 0) edge = some (0xFF4, 12, [{ st := .badDescriptor }], windowS) ∧
    boundAfter (.build 0xFF4 0 0 0 0 0 0 0 0) edge = some (0xFF4, 12, [{}], windowZ) := by decide

/-! ### Validation, the port predicate, framing, the layer services (T5, V4, V5, V8, V9) -/

theorem test_validate :
    ([11, 12, 13, 0x80000000].map fun n => after (.validate 0x123 n) exact) =
      [false, true, true, true].map fun f => some ([{ f := f }], exact.mem.map Prod.snd) := by decide

theorem test_isIbPort :
    ([4790, 4791, 4792, 0x000112B7, 0xB712].map fun n => after (.isIbPort n) exact) =
      [false, true, false, false, false].map fun f => some ([{ f := f }], exact.mem.map Prod.snd) := by decide

/-- V8 and T5: no next layer at length 12, one byte at 13, four at 16. -/
theorem test_parseNext :
    ([short, exact, longer, sample].map fun s => (after .parseNext s).map Prod.fst) =
      [some [{ st := .shortWindow }], some [{}], some [{ f := true, d0 := 1, d1 := 0x10C }],
       some [{ f := true, d0 := 4, d1 := 0x10C }]] := by decide

/-- T5: a payload that runs to the end of the arena, and one byte of binding at its end. -/
theorem test_parseNext_edge :
    (after .parseNext edge).map Prod.fst = some [{}] ∧
    (after .parseNext (boundTo 0xF00 0x100 windowS)).map Prod.fst = some [{ f := true, d0 := 0xF4, d1 := 0xF0C }] := by
  decide

/-- V9. -/
theorem test_hdrLen : after .hdrLen short = some ([{ d0 := 12 }], short.mem.map Prod.snd) := by decide

/-- V9 and T5: the reserved bits are not cleared. -/
theorem test_calcFields : after .calcFields sample = some ([{}], sample.mem.map Prod.snd) := by decide

/-- V9 with `OSI_TRANSPORT = 4`. -/
theorem test_osiLayer : after .osiLayer sample = some ([{ d0 := 4 }], sample.mem.map Prod.snd) := by decide

/-! ### Steps (T6, T7, P5) -/

/-- T6: an illegal header word consumes one word; `0x18000000` with `LEN` short is ILLEGAL_CMD, not SHORT_WINDOW. -/
theorem test_step_illegal :
    nextOf (step { short with port := [0x18000000, 0x10000000] }) =
      some { short with port := [0x10000000], responses := [{ st := .illegalCmd }] } := by decide

/-- R60: with two of BIND's three words presented, the step takes the host's next word. -/
theorem test_step_presents :
    nextOf (step { short with port := [0x01000000, 0x100], host := [.present 12] }) =
      some { short with port := [0x01000000, 0x100, 12] } := by decide

/-- P5, step 6: a host write between commands. -/
theorem test_step_hostWrite :
    (nextOf (step { sample with host := [.write 0x100 0x64] })).map (fun t => (t.headerByte 0, t.host)) =
      some (0x64, []) := by decide

/-- T7: reset while bound gives `BASE = 0`, `LEN = 0`, memory unchanged. -/
theorem test_step_reset :
    nextOf (step { sample with host := [.reset] }) = some { sample with base := 0, len := 0 } := by decide
/-! ### Witnesses: the hypotheses of the statements are met -/

theorem sample_bound : sample.Bound := ⟨by decide, show 0x100 + 16 ≤ 0x1000 by decide⟩

theorem exact_bound : exact.Bound := ⟨by decide, show 0x100 + 12 ≤ 0x1000 by decide⟩

theorem longer_bound : longer.Bound := ⟨by decide, show 0x100 + 13 ≤ 0x1000 by decide⟩

theorem edge_bound : edge.Bound := ⟨by decide, show 0xFF4 + 12 ≤ 0x1000 by decide⟩

theorem odd_bound : odd.Bound := ⟨by decide, show 0x101 + 12 ≤ 0x1000 by decide⟩

theorem sample_inv : sample.Inv := ⟨by decide, by unfold State.MemInArena; decide, sample_bound.binding⟩

/-- Eleven bytes bound, twelve, thirteen, and twelve at the end of the arena: the boundary of every window access. -/
def WindowWitness : Prop := short.len.toNat = 11 ∧ exact.Bound ∧ longer.Bound ∧ edge.Bound

theorem window_witness : WindowWitness := ⟨by decide, exact_bound, longer_bound, edge_bound⟩

/-- A region that ends with the arena is accepted by BIND and BUILD, one byte further is not. -/
def RegionWitness : Prop :=
  (0xFF4 : Word).toNat + 12 = sample.cfg.arenaSize.val ∧ sample.cfg.arenaSize.val + 1 = (0xFF5 : Word).toNat + 12

theorem region_witness : RegionWitness := by unfold RegionWitness; decide

/-- QPN and FECN share a container and stand at different places of `dataFields`; each is a member. -/
def TwoFieldsWitness : Prop :=
  dataFields[8]? = some (.getQpn, .setQpn, 24) ∧ dataFields[6]? = some (.getFecn, .setFecn, 1) ∧ (8 : Nat) ≠ 6 ∧
  (.getQpn, .setQpn, 24) ∈ dataFields ∧ (.getFecn, .setFecn, 1) ∈ dataFields

theorem twoFields_witness : TwoFieldsWitness := ⟨rfl, rfl, by decide, by simp [dataFields], by simp [dataFields]⟩

theorem witness_GetOpcodeReadsByteZero : WindowWitness := window_witness

/-- With a zeroed window for the truncation example. -/
theorem witness_GetReadsTheFieldsOfByteOne : WindowWitness ∧ RegionWitness ∧ (boundTo 0 12 windowZ).Bound :=
  ⟨window_witness, region_witness, ⟨by decide, show 0 + 12 ≤ 0x1000 by decide⟩⟩

theorem witness_GetPkeyReadsBytesTwoAndThreeBigEndian : WindowWitness := window_witness

theorem witness_GetReadsTheFieldsOfTheSecondWord : WindowWitness := window_witness

theorem witness_GetReadsTheFieldsOfTheThirdWord : WindowWitness := window_witness

/-- Two states that agree on `MEM`, `BASE`, `LEN` and the parameters and differ elsewhere. -/
theorem witness_GetIsPure :
    WindowWitness ∧ TwoFieldsWitness ∧
    ({ exact with port := [5], responses := [{ f := true }] } : State).mem = exact.mem ∧
    ({ exact with port := [5], responses := [{ f := true }] } : State) ≠ exact :=
  ⟨window_witness, twoFields_witness, rfl, by decide⟩

theorem witness_SetOpcodeWritesByteZero : WindowWitness := window_witness

theorem witness_SetWritesTheFieldsOfByteOne :
    WindowWitness ∧ RegionWitness ∧ (boundTo 0 12 windowZ).Bound :=
  witness_GetReadsTheFieldsOfByteOne

theorem witness_SetPkeyWritesBytesTwoAndThreeBigEndian : WindowWitness := window_witness

theorem witness_SetWritesTheFieldsOfTheSecondWord : WindowWitness := window_witness

theorem witness_SetWritesTheFieldsOfTheThirdWord : WindowWitness := window_witness

theorem witness_SetThenGetReturnsTheTruncatedValue : WindowWitness ∧ TwoFieldsWitness :=
  ⟨window_witness, twoFields_witness⟩

theorem witness_SetDisturbsNoOtherFieldAndNoReservedBit : WindowWitness ∧ TwoFieldsWitness :=
  ⟨window_witness, twoFields_witness⟩

theorem witness_SetTruncatesItsOperandSilently : WindowWitness ∧ TwoFieldsWitness :=
  ⟨window_witness, twoFields_witness⟩

theorem witness_SetsAreIdempotentAndCommute :
    WindowWitness ∧ TwoFieldsWitness ∧ .clrResv6a ∈ clearCommands ∧ .clrResv7 ∈ clearCommands :=
  ⟨window_witness, twoFields_witness, by decide, by decide⟩

theorem witness_ClrResv6aClearsTheSixBitsOfByteFour : WindowWitness := window_witness

theorem witness_ClrResv7ClearsTheSevenBitsOfByteEight : WindowWitness := window_witness

theorem witness_ClearingIsIdempotentAndDisturbsNoField :
    WindowWitness ∧ TwoFieldsWitness ∧ .clrResv6a ∈ clearCommands ∧ .clrResv7 ∈ clearCommands :=
  ⟨window_witness, twoFields_witness, by decide, by decide⟩

/-- SET_QPN over a window whose reserved bits are all ones. -/
theorem witness_OnlyBuildAndClearChangeAReservedBit :
    Instr.setQpn 5 ∉ clearCommands ∧
    (∀ base o se mig pad pkey qpn ack psn, Instr.setQpn 5 ≠ .build base o se mig pad pkey qpn ack psn) ∧
    ∃ t, exec (.setQpn 5) sample = .next t :=
  ⟨by decide, nofun, _, rfl⟩

theorem witness_ClrResvIsTheTwoClearsInOrder : WindowWitness := window_witness

theorem witness_SummaryAnswersOpcodeQpnAndPsn : WindowWitness := window_witness

theorem witness_BindSetsBaseAndLenOrRefusesTheDescriptor : RegionWitness := region_witness

theorem witness_BuildZeroesTheWindowAndRunsTheEightSetters : RegionWitness := region_witness

theorem witness_BuildWritesTheClosedFormOfTheHeader : RegionWitness := region_witness

/-- Zeroing the last twelve bytes of the arena. -/
theorem witness_BuildEqualsBindThenSettersOnZeroedBytes :
    RegionWitness ∧
    ({ sample with mem := sample.mem.zero 0xFF4 12 } : State) =
      { sample with mem := ({ sample with mem := sample.mem.zero 0xFF4 12 } : State).mem } ∧
    sample.Stored { sample with mem := sample.mem.zero 0xFF4 12 } (0xFF4 : Word).toNat (List.replicate 12 0) := by
  refine ⟨region_witness, rfl, fun k b h => ?_, fun x h => ?_⟩
  · have hk : k < 12 ∧ b = 0 := by
      obtain ⟨hk, -⟩ := List.getElem?_eq_some_iff.mp h
      exact ⟨by simpa using hk, List.eq_of_mem_replicate (List.mem_of_getElem? h)⟩
    have h2 : (0xFF4 : Word).toNat = 0xFF4 := rfl
    rw [hk.2, h2]
    simp only [Memory.read_zero]
    exact if_pos (by omega)
  · simp only [Memory.read_zero]
    have h2 : (0xFF4 : Word).toNat = 0xFF4 := rfl
    simp only [List.length_replicate, h2] at h
    exact if_neg (by omega)

/-- Lengths 12 and 11. -/
theorem witness_ValidateTestsTheLengthOnly : 12 ≤ (12 : Word).toNat ∧ (11 : Word).toNat < 12 := by decide

/-- Ports 4791, 4790 and one that agrees with 4791 in its low 16 bits. -/
theorem witness_IsIbPortIsTrueOfPort4791Alone :
    (4791 : Word).toNat = 4791 ∧ (4790 : Word).toNat ≠ 4791 ∧ (0x000112B7 : Word).toNat ≠ 4791 := by decide

theorem witness_ParseNextFramesThePayload :
    short.len.toNat < 12 ∧ exact.len.toNat = 12 ∧ 12 < longer.len.toNat ∧ longer.BindingInArena :=
  ⟨by decide, by decide, by decide, longer_bound.binding⟩

/-- A command that answers OK, one that faults, and an illegal header word on the port. -/
theorem witness_EveryCommandRespondsOnceAndAFaultChangesNothing :
    (∃ t, exec (.setQpn 5) sample = .next t) ∧
    (∃ t, exec (.setQpn 5) short = .next t ∧ t.responses = short.responses ++ [{ st := .shortWindow }] ∧
      Status.shortWindow.code ≠ 0) ∧
    WellFormed.header 0x10000001 = false ∧ ({ short with port := [0x10000001, 7] } : State).port = 0x10000001 :: [7] :=
  ⟨⟨_, rfl⟩, ⟨_, rfl, rfl, by decide⟩, by decide, rfl⟩

theorem witness_ShortWindowExactlyWhenFewerThanTwelveBytesAreBound :
    (accessesWindow .getQpn = true ∧ short.len.toNat < 12) ∧
    (12 ≤ exact.len.toNat ∧ Answers .getOpcode exact { d0 := 4 }) ∧
    (accessesWindow .hdrLen = false ∧ Instr.hdrLen ≠ .parseNext ∧ Answers .hdrLen short { d0 := 12 }) :=
  ⟨⟨rfl, by decide⟩, ⟨by decide, rfl⟩, rfl, by decide, rfl⟩

/-- Both answers occur at the boundary. -/
theorem witness_BadDescriptorExactlyWhenTheRegionDoesNotFit :
    RegionWitness ∧ Answers (.bind 0xFF5 12) sample { st := .badDescriptor } ∧
    Answers (.build 0xFF5 0 0 0 0 0 0 0 0) sample { st := .badDescriptor } :=
  ⟨region_witness, rfl, rfl⟩

theorem witness_IllegalHeaderRaisesIllegalCmdAndConsumesOneWord :
    (WellFormed.header 0x18000000 = false ∧ ({ short with port := [0x18000000, 7] } : State).port = 0x18000000 :: [7]) ∧
    Answers .hdrLen short { d0 := 12 } :=
  ⟨⟨by decide, rfl⟩, rfl⟩

theorem witness_EveryCommandCompletesWhereTheBindingIsInTheArena :
    short.BindingInArena ∧ edge.BindingInArena := ⟨show 0x100 + 11 ≤ 0x1000 by decide, edge_bound.binding⟩

/-- The window one byte beyond the arena, and the stop. -/
theorem witness_WindowOutsideTheArenaStops :
    accessesWindow .getOpcode = true ∧ 12 ≤ outside.len.toNat ∧ outside.cfg.arenaSize.val < outside.base.toNat + 12 ∧
    stopOf (exec .getOpcode outside) = some .windowOutsideArena := by decide

/-- A byte before the window, one after it, and a command that is no access of the window. -/
theorem witness_OnlyTheTwelveWindowBytesChange :
    (∃ t, exec (.setQpn 5) sample = .next t ∧ 0xFF < t.base.toNat ∧ t.base.toNat + 12 ≤ 0x10C) ∧
    (∃ t, exec (.bind 0 12) sample = .next t) ∧ accessesWindow (.bind 0 12) = false ∧
    ∀ base o se mig pad pkey qpn ack psn, Instr.bind 0 12 ≠ .build base o se mig pad pkey qpn ack psn :=
  ⟨⟨_, rfl, by decide, by decide⟩, ⟨_, rfl⟩, rfl, nofun⟩

theorem witness_OnlyBindAndBuildWriteTheBindingRegisters :
    (∃ t, exec (.setQpn 5) sample = .next t) ∧ (∀ base len, Instr.setQpn 5 ≠ .bind base len) ∧
    ∀ base o se mig pad pkey qpn ack psn, Instr.setQpn 5 ≠ .build base o se mig pad pkey qpn ack psn :=
  ⟨⟨_, rfl⟩, nofun, nofun⟩

/-- S at `0x100` and at the odd address `0x101`. -/
theorem witness_TheResultIsTheSameAtEveryBase :
    accessesWindow .getQpn = true ∧ exact.Bound ∧ odd.Bound ∧ ∀ k, k < 12 → exact.headerByte k = odd.headerByte k :=
  ⟨rfl, exact_bound, odd_bound, by decide⟩

theorem witness_DecodedWordsAreTheEncodingOfTheCommand :
    decode [0x01000000, 0x100, 16, 0x10000000] = .command (.bind 0x100 16) [0x10000000] := by decide

/-- T6's word with a reserved bit set, on the port. -/
theorem witness_HeaderIsLegalExactlyForThe32Opcodes :
    decode [0x10000001, 7] = .illegal [7] ∧ ({ short with port := [0x10000001, 7] } : State).port = [0x10000001, 7] := by
  decide

/-- The last byte of each container, and the addresses just before and just after. -/
theorem witness_MemReadAndMemWriteAreBigEndian :
    ((1 : Nat) ∈ [1, 2, 4] ∧ 0 < 1) ∧ ((2 : Nat) ∈ [1, 2, 4] ∧ 1 < 2) ∧ ((4 : Nat) ∈ [1, 2, 4] ∧ 3 < 4) ∧
    0xFF < 0x100 ∧ 0x100 + 4 ≤ 0x104 ∧ edge.Bound :=
  ⟨by decide, by decide, by decide, by decide, by decide, edge_bound⟩

theorem witness_StepRunsTheDecodedCommand :
    decode ({ sample with port := [0x23000000, 7, 9] } : State).port = .command (.setPad 7) [9] := by decide

/-- BIND with two of its three words presented; and BIND's three words in the host's script. -/
theorem witness_ACommandRunsWhenAllItsWordsArePresented :
    (2 < (encode (.bind 0x100 16)).length ∧
      ({ sample with port := [0x01000000, 0x100] } : State).port = (encode (.bind 0x100 16)).take 2 ∧
      ({ sample with port := [0x01000000, 0x100] } : State).host = []) ∧
    ({ sample with host := [.present 0x01000000, .present 0x100, .present 16] } : State).port = [] ∧
    ({ sample with host := [.present 0x01000000, .present 0x100, .present 16] } : State).host =
      (encode (.bind 0x100 16)).map .present ++ [] := by decide

theorem witness_PresentedCommandsRunInTheOrderIssued :
    ({ sample with host := [.present 0x23000000, .present 7, .present 0x13000000, .reset] } : State).port = [] ∧
    ({ sample with host := [.present 0x23000000, .present 7, .present 0x13000000, .reset] } : State).host =
      presentAll [.setPad 7, .getPad] ++ [.reset] := by decide

/-- The last byte of the arena, and the address after it. -/
theorem witness_HostWriteStoresItsByteBetweenCommands :
    decode ({ sample with host := [.write 0xFFF 1] } : State).port = .incomplete ∧
    (0xFFF : Word).toNat < sample.cfg.arenaSize.val ∧ sample.cfg.arenaSize.val ≤ (0x1000 : Word).toNat ∧
    stopOf (step { sample with host := [.write 0x1000 1] }) = some .hostWriteOutsideArena := by decide

theorem witness_ResetUnbindsAndLeavesMemory :
    decode ({ sample with port := [0x01000000], host := [.reset] } : State).port = .incomplete ∧
    accessesWindow .getOpcode = true := by decide

theorem witness_TheResetStateIsUnbound : accessesWindow .getOpcode = true ∧ accessesWindow (.setQpn 5) = true := by decide

theorem witness_TheIdleBlockHoldsItsState : decode sample.port = .incomplete ∧ sample.host = [] := by decide

/-- A step that executes a command and one that takes a host action. -/
theorem witness_EveryStepKeepsTheInvariant :
    ((sample.withFetchWord 32 0x38000000).Inv ∧ ∃ t, step (sample.withFetchWord 32 0x38000000) = .next t) ∧
    (({ sample with host := [.write 0xFFF 1] } : State).Inv ∧
      ∃ t, step { sample with host := [.write 0xFFF 1] } = .next t) :=
  ⟨⟨⟨sample_inv.memWf, sample_inv.memInArena, sample_inv.binding⟩, _, rfl⟩,
    ⟨sample_inv.memWf, sample_inv.memInArena, sample_inv.binding⟩, _, rfl⟩

theorem witness_NoRunReachesAWindowOutsideTheArena : sample.Inv := sample_inv

end Sys2Proof.Tests
end

section
/-!
PROOFS. The number `MemRead` returns, as big-endian arithmetic on its bytes (00_scope.md R14), and where the containers of
the fields lie.
-/

namespace Sys2Proof.Machine

/-- `MemRead(a, n)` is an `8n`-bit number. -/
theorem Memory.toNat_readBytes_lt (m : Memory) (a : Nat) {n : Nat} (hn : n ≤ 4) :
    (m.readBytes a n).toNat < 2 ^ (8 * n) := by
  apply Nat.lt_pow_two_of_testBit
  intro i hi
  have hi' : ¬ i < 8 * n := by omega
  rw [BitVec.testBit_toNat, Memory.getLsbD_readBytes m a hn]
  simp [hi']

/-- One byte more at the high address: the bytes before it move up by 8 bits, and none is lost within the word. -/
theorem Memory.toNat_readBytes_succ (m : Memory) (a : Nat) {n : Nat} (hn : n < 4) :
    (m.readBytes a (n + 1)).toNat = (m.readBytes a n).toNat * 2 ^ 8 + (m.read (a + n)).toNat := by
  have hbyte : (m.read (a + n)).toNat < 2 ^ 8 := (m.read (a + n)).isLt
  have hread : (m.readBytes a n).toNat < 2 ^ 24 :=
    (m.toNat_readBytes_lt a hn.le).trans_le (Nat.pow_le_pow_right (by decide) (by omega))
  have hshift : (m.readBytes a n).toNat <<< 8 < 2 ^ 32 := by
    rw [Nat.shiftLeft_eq]
    omega
  rw [Memory.readBytes, BitVec.toNat_or, BitVec.toNat_shiftLeft, Nat.mod_eq_of_lt hshift,
    BitVec.toNat_setWidth_of_le (by decide), ← Nat.shiftLeft_add_eq_or_of_lt hbyte, Nat.shiftLeft_eq]

theorem Memory.toNat_readBytes_one (m : Memory) (a : Nat) : (m.readBytes a 1).toNat = (m.read a).toNat := by
  rw [Memory.readBytes_one, BitVec.toNat_setWidth_of_le (by decide)]

theorem Memory.toNat_readBytes_two (m : Memory) (a : Nat) :
    (m.readBytes a 2).toNat = (m.read a).toNat * 2 ^ 8 + (m.read (a + 1)).toNat := by
  rw [Memory.toNat_readBytes_succ m a (by decide), Memory.toNat_readBytes_one]

theorem Memory.toNat_readBytes_four (m : Memory) (a : Nat) :
    (m.readBytes a 4).toNat = (m.read a).toNat * 2 ^ 24 + (m.read (a + 1)).toNat * 2 ^ 16 +
      (m.read (a + 2)).toNat * 2 ^ 8 + (m.read (a + 3)).toNat := by
  rw [Memory.toNat_readBytes_succ m a (by decide), Memory.toNat_readBytes_succ m a (by decide),
    Memory.toNat_readBytes_two]
  omega

/-- The byte of the operand that `MemWrite` puts at offset `i`, as a number. -/
theorem Memory.toNat_read_writeBytes_at (m : Memory) (a : Nat) {n i : Nat} (v : Word) (hi : i < n) :
    ((m.writeBytes a n v).read (a + i)).toNat = v.toNat / 2 ^ (8 * (n - 1 - i)) % 2 ^ 8 := by
  rw [Memory.read_writeBytes_at m a n i v hi, BitVec.toNat_setWidth, BitVec.toNat_ushiftRight, Nat.shiftRight_eq_div_pow]

/-- Every container has 1, 2 or 4 bytes (10_state.md R23). -/
theorem Field.size_mem (f : Field) : f.size ∈ [1, 2, 4] := by
  cases f <;> decide

/-- In a bound state every container lies in the arena (10_state.md R27). -/
theorem State.Bound.container_le {s : State} (h : s.Bound) (f : Field) :
    s.base.toNat + f.off + f.size ≤ s.cfg.arenaSize.val := by
  have hlen : 12 ≤ s.len.toNat := h.long
  have hbinding : s.base.toNat + s.len.toNat ≤ s.cfg.arenaSize.val := h.binding
  have hspan := f.span_le
  omega

/-- Settles O43, from the arithmetic of `MemRead`, the bytes and the frame of `MemWrite`, and the span of each field. -/
theorem memReadAndMemWriteAreBigEndian : Obligations.MemReadAndMemWriteAreBigEndian :=
  ⟨Memory.toNat_readBytes_one, Memory.toNat_readBytes_two, Memory.toNat_readBytes_four,
    fun m a _ _ v _ hi => m.toNat_read_writeBytes_at a v hi,
    fun m _ _ _ v _ hb => m.read_writeBytes_other v hb,
    fun f _ hs => ⟨f.size_mem, f.span_le, hs.container_le f⟩⟩

end Sys2Proof.Machine
end

section
/-!
PROOFS. The table of the thirteen fields (10_state.md R23), and the field each bit of the window belongs to (R24), from
which the fields partition the window.
-/

namespace Sys2Proof.Machine

theorem Field.mem_allFields (f : Field) : f ∈ allFields := by
  cases f <;> decide

theorem allFields_nodup : allFields.Nodup := by decide

/-- R24, the layout byte by byte: the field that bit `i` of window byte `k` belongs to. -/
def Field.ofBit (k i : Nat) : Field :=
  match k with
  | 0 => .opcode
  | 1 => if i = 7 then .se else if i = 6 then .mig else if 4 ≤ i then .pad else .tver
  | 2 | 3 => .pkey
  | 4 => if i = 7 then .fecn else if i = 6 then .becn else .resv6a
  | 5 | 6 | 7 => .qpn
  | 8 => if i = 7 then .ack else .resv7
  | _ => .psn

/-- R23's containers, shifts and widths give R24's layout: a bit of the window is a bit of the one field named there. -/
theorem Field.holdsBit_eq (f : Field) : ∀ (k : Fin 12) (i : Fin 8), f.holdsBit k i = (f == Field.ofBit k i) := by
  cases f <;> decide

/-- The fields that hold a given bit of the window, counted: `Field.ofBit` occurs once in the list of all fields. -/
theorem allFields_filter_holdsBit_length (k : Fin 12) (i : Fin 8) :
    (allFields.filter fun f => f.holdsBit k i).length = 1 := by
  calc (allFields.filter fun f => f.holdsBit k i).length
      = (allFields.filter (· == Field.ofBit k i)).length := by simp only [Field.holdsBit_eq]
    _ = allFields.count (Field.ofBit k i) := List.countP_eq_length_filter.symm
    _ = 1 := List.count_eq_one_of_mem allFields_nodup (Field.mem_allFields _)

/-- Settles O44: the rows and the sum of the widths by evaluating the table, the partition from R24's layout. -/
theorem theFieldTableIsThatOfTheSpec : Obligations.TheFieldTableIsThatOfTheSpec :=
  ⟨by decide, Field.mem_allFields, by decide, allFields_filter_holdsBit_length⟩

end Sys2Proof.Machine
end

section
/-!
PROOFS. A window access sees the arena through the twelve window bytes alone (20_memory.md R44): what it answers and what
it leaves in the window are the same wherever these bytes lie.
-/

namespace Sys2Proof.Machine

/-- The two states hold the same twelve window bytes, each at its own `BASE`. -/
def State.SameWindow (s s' : State) : Prop := ∀ k, k < 12 → s.headerByte k = s'.headerByte k

/-- `MemRead` depends on its `n` bytes in order, not on the address they begin at. -/
theorem Memory.readBytes_eq_of_read_eq {m m' : Memory} {a a' n : Nat}
    (h : ∀ k, k < n → m.read (a + k) = m'.read (a' + k)) : m.readBytes a n = m'.readBytes a' n := by
  induction n with
  | zero => rfl
  | succ n ih =>
    rw [Memory.readBytes, Memory.readBytes, ih fun k hk => h k (by omega), h n (by omega)]

/-- States with the same window bytes hold the same number in the container of every field. -/
theorem State.SameWindow.readBytes_container {s s' : State} (h : s.SameWindow s') (f : Field) :
    s.mem.readBytes (s.base.toNat + f.off) f.size = s'.mem.readBytes (s'.base.toNat + f.off) f.size := by
  have hspan := f.span_le
  refine Memory.readBytes_eq_of_read_eq fun k hk => ?_
  rw [Nat.add_assoc, Nat.add_assoc]
  exact h (f.off + k) (by omega)

theorem State.SameWindow.getField_eq {s s' : State} (h : s.SameWindow s') (f : Field) : s.getField f = s'.getField f :=
  congrArg f.extract (h.readBytes_container f)

/-- A byte of the field's container after the field is written: a byte of the container's new value. -/
theorem State.headerByte_putField_at (s : State) (f : Field) (v : Word) {k : Nat} (hk : k < f.size) :
    (s.putField f v).headerByte (f.off + k) =
      (f.insert (s.mem.readBytes (s.base.toNat + f.off) f.size) v >>> (8 * (f.size - 1 - k))).setWidth 8 := by
  rw [State.headerByte, State.putField_base, State.putField_mem, ← Nat.add_assoc, Memory.read_writeBytes_at _ _ _ _ _ hk]

/-- A window byte outside the field's container stays when the field is written. -/
theorem State.headerByte_putField_other (s : State) (f : Field) (v : Word) {k : Nat}
    (hk : k < f.off ∨ f.off + f.size ≤ k) : (s.putField f v).headerByte k = s.headerByte k :=
  s.read_putField_other f v (by rw [State.putField_base]; omega)

/-- Writing the same value into the same field keeps equal windows equal. -/
theorem State.SameWindow.putField {s s' : State} (h : s.SameWindow s') (f : Field) (v : Word) :
    (s.putField f v).SameWindow (s'.putField f v) := by
  intro k hk
  by_cases hin : f.off ≤ k ∧ k < f.off + f.size
  · obtain ⟨j, rfl⟩ := Nat.exists_eq_add_of_le hin.1
    have hj : j < f.size := by omega
    rw [State.headerByte_putField_at _ _ _ hj, State.headerByte_putField_at _ _ _ hj, h.readBytes_container f]
  · have hout : k < f.off ∨ f.off + f.size ≤ k := by omega
    rw [State.headerByte_putField_other _ _ _ hout, State.headerByte_putField_other _ _ _ hout, h k hk]

/-- A response changes no window byte. -/
theorem State.SameWindow.respond {s s' : State} (h : s.SameWindow s') (r r' : Response) :
    (s.respond r).SameWindow (s'.respond r') := h

/-- In a bound state a GET completes (41_get.md R92). -/
theorem State.Bound.readField_eq {s : State} (h : s.Bound) (f : Field) :
    readField f s = .next (s.respond { d0 := s.getField f }) :=
  s.onWindow_bound _ h.long h.binding

/-- In a bound state a SET or CLR completes (42_set.md R112). -/
theorem State.Bound.writeField_eq {s : State} (h : s.Bound) (f : Field) (v : Word) :
    writeField f v s = .next ((s.putField f v).respond {}) :=
  State.onWindow_bound _ h.long h.binding

/-- A command that accesses the window is a GET of a field, or a SET or CLR of one. -/
theorem exec_of_accessesWindow {i : Instr} (h : accessesWindow i = true) :
    (∃ f, ∀ s, exec i s = readField f s) ∨ (∃ f v, ∀ s, exec i s = writeField f v s) := by
  rcases exec_shape i with ⟨f, _, hx⟩ | ⟨f, v, _, hx⟩ | ⟨_, _, rfl⟩ | ⟨_, _, _, _, _, _, _, _, _, rfl⟩ | rfl | ⟨hn, _⟩
  · exact .inl ⟨f, hx⟩
  · exact .inr ⟨f, v, hx⟩
  · cases h
  · cases h
  · cases h
  · rw [h] at hn
    cases hn

/-- Settles O38: a GET answers from a container equal in both states, a SET or CLR puts equal bytes into equal windows. -/
theorem theResultIsTheSameAtEveryBase : Obligations.TheResultIsTheSameAtEveryBase := by
  intro i s s' ha hs hs' (hw : s.SameWindow s')
  rcases exec_of_accessesWindow ha with ⟨f, hx⟩ | ⟨f, v, hx⟩
  · refine ⟨_, _, { d0 := s.getField f }, (hx s).trans (hs.readField_eq f), (hx s').trans (hs'.readField_eq f), rfl, ?_,
      rfl, hw.respond _ _⟩
    rw [State.respond_responses, hw.getField_eq f]
  · exact ⟨_, _, {}, (hx s).trans (hs.writeField_eq f v), (hx s').trans (hs'.writeField_eq f v), rfl, rfl, rfl,
      (hw.putField f v).respond _ _⟩

end Sys2Proof.Machine
end

section
/-!
PROOFS. Lists of commands run one after another (30_encoding.md R73, R75), and every window access of such a list on a
short window (60_exceptions.md R152).
-/

namespace Sys2Proof.Machine

/-- A command that completes hands its state on to the commands after it. -/
theorem execAll_cons {i : Instr} {s t : State} (h : exec i s = .next t) (is : List Instr) :
    execAll (i :: is) s = execAll is t := by
  rw [execAll, h]

/-- A command that accesses the window answers SHORT_WINDOW while `LEN < 12`. -/
theorem exec_short {i : Instr} (ha : accessesWindow i = true) {s : State} (hs : s.len.toNat < 12) :
    exec i s = .next (s.raise .shortWindow) := by
  rcases exec_of_accessesWindow ha with ⟨f, hx⟩ | ⟨f, v, hx⟩
  · exact (hx s).trans (State.onWindow_short _ hs)
  · exact (hx s).trans (State.onWindow_short _ hs)

/-- On a short window each access of a list gives its own SHORT_WINDOW response, the later ones as the first (R73). -/
theorem execAll_short {is : List Instr} (ha : ∀ i ∈ is, accessesWindow i = true) {s : State} (hs : s.len.toNat < 12) :
    execAll is s = .next { s with responses := s.responses ++ is.map fun _ => { st := .shortWindow } } := by
  induction is generalizing s with
  | nil => simp [execAll]
  | cons i is ih =>
    have htail := ih (fun j hj => ha j (List.mem_cons_of_mem i hj)) (s := s.raise .shortWindow) hs
    rw [execAll_cons (exec_short (ha i List.mem_cons_self) hs), htail]
    simp [State.raise, State.respond]

/-- A response leaves the block bound. -/
theorem State.Bound.respond {s : State} (h : s.Bound) (r : Response) : (s.respond r).Bound := ⟨h.long, h.binding⟩

/-- Writing a field leaves the block bound. -/
theorem State.Bound.putField {s : State} (h : s.Bound) (f : Field) (v : Word) : (s.putField f v).Bound :=
  ⟨h.long, h.binding⟩

end Sys2Proof.Machine
end

section
/-!
PROOFS. What clearing a field stores (43_clear_reserved.md R130): each byte of its container with the field's bits
masked out; and stores at adjacent addresses seen as one.
-/

namespace Sys2Proof.Machine

/-- The bits of byte `k` of the field's container that belong to the field. -/
def Field.byteMask (f : Field) (k : Nat) : Byte := (f.mask >>> (8 * (f.size - 1 - k))).setWidth 8

/-- A byte of the field's container after 0 is written into the field: the field's bits are 0, every other bit stays. -/
theorem State.headerByte_putField_zero (s : State) (f : Field) {k : Nat} (hk : k < f.size) :
    (s.putField f 0).headerByte (f.off + k) = s.headerByte (f.off + k) &&& ~~~ f.byteMask k := by
  have hw := f.width_le
  apply BitVec.eq_of_getLsbD_eq
  intro i hi
  have hbit : 8 * (f.size - 1 - k) + i < 32 := by omega
  rw [State.headerByte, State.putField_base, ← Nat.add_assoc, s.getLsbD_read_putField_at f 0 hk hi, BitVec.getLsbD_and,
    BitVec.getLsbD_not, Field.byteMask, BitVec.getLsbD_setWidth, BitVec.getLsbD_ushiftRight, f.getLsbD_mask hbit]
  by_cases hin : f.shift ≤ 8 * (f.size - 1 - k) + i ∧ 8 * (f.size - 1 - k) + i < f.shift + f.width
  · simp [hin]
  · simp [hin, hi]

/-- Clearing a field stores its container, masked byte by byte, and nothing else. -/
theorem State.stored_putField_zero (s : State) (f : Field) :
    s.Stored (s.putField f 0) (s.base.toNat + f.off)
      ((List.range f.size).map fun k => s.headerByte (f.off + k) &&& ~~~ f.byteMask k) := by
  refine ⟨fun k b hb => ?_, fun x hx => s.read_putField_other f 0 (by simpa using hx)⟩
  obtain ⟨hk, rfl⟩ := List.getElem?_eq_some_iff.mp hb
  rw [List.length_map, List.length_range] at hk
  rw [List.getElem_map, List.getElem_range, ← s.headerByte_putField_zero f hk, State.headerByte, State.putField_base,
    Nat.add_assoc]

/-- Two stores, the second where the first ends, are one store of all the bytes. -/
theorem State.Stored.append {s t u : State} {a : Nat} {bs cs : List Byte} (h : s.Stored t a bs)
    (h' : t.Stored u (a + bs.length) cs) : s.Stored u a (bs ++ cs) := by
  obtain ⟨hread, hframe⟩ := h
  obtain ⟨hread', hframe'⟩ := h'
  refine ⟨fun k b hb => ?_, fun x hx => ?_⟩
  · by_cases hk : k < bs.length
    · rw [List.getElem?_append_left hk] at hb
      rw [hframe' _ (.inl (by omega)), hread k b hb]
    · rw [List.getElem?_append_right (by omega)] at hb
      have hu := hread' _ b hb
      rwa [show a + bs.length + (k - bs.length) = a + k by omega] at hu
  · rw [List.length_append] at hx
    rw [hframe' x (by omega), hframe x (by omega)]

/-- Clearing a field whose bits all lie in the first byte of a 4-byte container masks that byte and stores the other
three as they were. -/
theorem State.stored_putField_zero_firstByte (s : State) {f : Field} {m : Byte} (hn : f.size = 4)
    (hm : (List.range 4).map f.byteMask = [m, 0, 0, 0]) :
    s.Stored (s.putField f 0) (s.base.toNat + f.off)
      [s.headerByte f.off &&& ~~~ m, s.headerByte (f.off + 1), s.headerByte (f.off + 2), s.headerByte (f.off + 3)] := by
  obtain ⟨h0, h1, h2, h3⟩ : f.byteMask 0 = m ∧ f.byteMask 1 = 0 ∧ f.byteMask 2 = 0 ∧ f.byteMask 3 = 0 := by
    simpa [List.range_succ] using hm
  have hkeep (b : Byte) : b &&& 255#8 = b := BitVec.and_allOnes
  have hstored := s.stored_putField_zero f
  rw [hn] at hstored
  simpa [List.range_succ, h0, h1, h2, h3, hkeep] using hstored

/-- 43_clear_reserved.md R131: the bytes CLR_RESV6A stores. -/
theorem State.stored_putField_resv6a (s : State) :
    s.Stored (s.putField .resv6a 0) (s.base.toNat + 4)
      [s.headerByte 4 &&& 0xC0, s.headerByte 5, s.headerByte 6, s.headerByte 7] :=
  s.stored_putField_zero_firstByte (f := .resv6a) (m := 0x3F) rfl (by decide)

/-- 43_clear_reserved.md R132: the bytes CLR_RESV7 stores. -/
theorem State.stored_putField_resv7 (s : State) :
    s.Stored (s.putField .resv7 0) (s.base.toNat + 8)
      [s.headerByte 8 &&& 0x80, s.headerByte 9, s.headerByte 10, s.headerByte 11] :=
  s.stored_putField_zero_firstByte (f := .resv7) (m := 0x7F) rfl (by decide)

/-- The two clears in order: one store of the bytes 4 to 11 with both reserved runs masked out. -/
theorem State.stored_putField_resv6a_resv7 (s : State) :
    s.Stored ((s.putField .resv6a 0).putField .resv7 0) (s.base.toNat + 4)
      [s.headerByte 4 &&& 0xC0, s.headerByte 5, s.headerByte 6, s.headerByte 7,
        s.headerByte 8 &&& 0x80, s.headerByte 9, s.headerByte 10, s.headerByte 11] := by
  have hbyte : ∀ k, 8 ≤ k → (s.putField .resv6a 0).headerByte k = s.headerByte k :=
    fun k hk => s.headerByte_putField_other .resv6a 0 (.inr hk)
  have hsecond := (s.putField .resv6a 0).stored_putField_resv7
  rw [hbyte 8 (by decide), hbyte 9 (by decide), hbyte 10 (by decide), hbyte 11 (by decide)] at hsecond
  exact s.stored_putField_resv6a.append hsecond

/-- In a bound state CLR_RESV6A completes (43_clear_reserved.md R131). -/
theorem State.Bound.exec_clrResv6a {s : State} (h : s.Bound) :
    exec .clrResv6a s = .next ((s.putField .resv6a 0).respond {}) :=
  h.writeField_eq .resv6a 0

/-- In a bound state CLR_RESV7 completes (43_clear_reserved.md R132). -/
theorem State.Bound.exec_clrResv7 {s : State} (h : s.Bound) :
    exec .clrResv7 s = .next ((s.putField .resv7 0).respond {}) :=
  h.writeField_eq .resv7 0

/-- Settles O20: on a short window both accesses fault; in a bound state the two clears store adjacent containers. -/
theorem clrResvIsTheTwoClearsInOrder : Obligations.ClrResvIsTheTwoClearsInOrder := by
  refine ⟨rfl, fun s hs => execAll_short (by decide) hs, fun s hs => ?_⟩
  have hmid := (hs.putField .resv6a 0).respond {}
  refine ⟨_, (execAll_cons hs.exec_clrResv6a _).trans (execAll_cons hmid.exec_clrResv7 _), ?_,
    s.stored_putField_resv6a_resv7⟩
  simp [State.respond, State.putField, State.setMem]

end Sys2Proof.Machine
end

section
/-!
PROOFS. A field's value as arithmetic on its container (41_get.md R92), and SUMMARY (30_encoding.md R75).
-/

namespace Sys2Proof.Machine

/-- `(c >> sh) & (2^w - 1)` as a number: a quotient and a remainder. -/
theorem Field.toNat_extract (f : Field) (c : Word) :
    (f.extract c).toNat = c.toNat / 2 ^ f.shift % 2 ^ f.width := by
  have hw := f.width_le
  have hones : 2 ^ f.width - 1 < 2 ^ 32 :=
    (Nat.sub_lt (Nat.two_pow_pos _) (by decide)).trans_le (Nat.pow_le_pow_right (by decide) (by omega))
  rw [Field.extract, BitVec.toNat_and, BitVec.toNat_ushiftRight, ones, BitVec.toNat_ofNat, Nat.mod_eq_of_lt hones,
    Nat.and_two_pow_sub_one_eq_mod, Nat.shiftRight_eq_div_pow]

/-- OpCode is window byte 0 (41_get.md R93). -/
theorem State.getField_opcode (s : State) : s.getField .opcode = (s.headerByte 0).setWidth 32 := by
  apply BitVec.eq_of_toNat_eq
  rw [State.getField, Field.toNat_extract]
  show ((s.mem.readBytes s.base.toNat 1).toNat / 2 ^ 0) % 2 ^ 8 = _
  rw [Memory.toNat_readBytes_one, BitVec.toNat_setWidth_of_le (by decide), Nat.pow_zero, Nat.div_one]
  exact Nat.mod_eq_of_lt (BitVec.isLt _)

/-- A field that is the low 24 bits of a 4-byte container: the container's last three bytes, big-endian (10_state.md
R23). -/
theorem State.getField_low24 (s : State) {f : Field} (hn : f.size = 4) (hsh : f.shift = 0) (hw : f.width = 24) :
    s.getField f = BitVec.ofNat 32 ((s.headerByte (f.off + 1)).toNat * 65536 +
      (s.headerByte (f.off + 2)).toNat * 256 + (s.headerByte (f.off + 3)).toNat) := by
  have h1 := (s.headerByte (f.off + 1)).isLt
  have h2 := (s.headerByte (f.off + 2)).isLt
  have h3 := (s.headerByte (f.off + 3)).isLt
  apply BitVec.eq_of_toNat_eq
  rw [State.getField, Field.toNat_extract, hn, hsh, hw, Memory.toNat_readBytes_four, BitVec.toNat_ofNat]
  simp only [State.headerByte, ← Nat.add_assoc] at h1 h2 h3 ⊢
  omega

/-- 41_get.md R101. -/
theorem State.getField_qpn (s : State) : s.getField .qpn = BitVec.ofNat 32
    ((s.headerByte 5).toNat * 65536 + (s.headerByte 6).toNat * 256 + (s.headerByte 7).toNat) :=
  s.getField_low24 rfl rfl rfl

/-- 41_get.md R103. -/
theorem State.getField_psn (s : State) : s.getField .psn = BitVec.ofNat 32
    ((s.headerByte 9).toNat * 65536 + (s.headerByte 10).toNat * 256 + (s.headerByte 11).toNat) :=
  s.getField_low24 rfl rfl rfl

/-- In a bound state a list of GETs gives one `OK` response for each, with its field, and changes nothing else. -/
theorem State.Bound.execAll_gets {s : State} (h : s.Bound) {gs : List (Instr × Field)}
    (hg : ∀ g ∈ gs, ∀ t, exec g.1 t = readField g.2 t) :
    execAll (gs.map Prod.fst) s =
      .next { s with responses := s.responses ++ gs.map fun g => { d0 := s.getField g.2 } } := by
  induction gs generalizing s with
  | nil => simp [execAll]
  | cons g gs ih =>
    have hhead : exec g.1 s = .next (s.respond { d0 := s.getField g.2 }) :=
      (hg g List.mem_cons_self s).trans (h.readField_eq g.2)
    have htail := ih (h.respond { d0 := s.getField g.2 }) fun j hj => hg j (List.mem_cons_of_mem g hj)
    rw [List.map_cons, execAll_cons hhead, htail]
    simp [State.respond, State.getField]

/-- Settles O21: on a short window all three accesses fault; in a bound state the three GETs answer their fields. -/
theorem summaryAnswersOpcodeQpnAndPsn : Obligations.SummaryAnswersOpcodeQpnAndPsn := by
  refine ⟨rfl, fun s hs => execAll_short (by decide) hs, fun s hs => ?_⟩
  rw [← s.getField_opcode, ← s.getField_qpn, ← s.getField_psn]
  exact hs.execAll_gets (gs := [(.getOpcode, .opcode), (.getQpn, .qpn), (.getPsn, .psn)])
    (by simp [exec, execGetOpcode, execGetQpn, execGetPsn])

end Sys2Proof.Machine
end

section
/-!
PROOFS. The opcodes of 30_encoding.md R64 and the illegal header words (R68).
-/

namespace Sys2Proof

/-- R64: the 32 opcodes, as the list of opcodes with their lengths gives them. -/
def legalOpcodes : List Nat := opcodeWords.map Prod.fst

@[simp] theorem formatF1_ne_illegal (mk : Word → Instr) (ws rest : List Word) :
    formatF1 mk ws ≠ .illegal rest := by
  unfold formatF1
  split <;> simp

@[simp] theorem formatF2_ne_illegal (mk : Word → Word → Instr) (ws rest : List Word) :
    formatF2 mk ws ≠ .illegal rest := by
  unfold formatF2
  split <;> simp

@[simp] theorem formatF9_ne_illegal (mk : Word → Word → Word → Word → Word → Word → Word → Word → Word → Instr)
    (ws rest : List Word) : formatF9 mk ws ≠ .illegal rest := by
  unfold formatF9
  split <;> simp

/-- R70: the arms of the decoder are the 32 opcodes of R64, and none of them answers that the word is illegal. -/
theorem decodeOp_eq_illegal_iff (op : Nat) (ws : List Word) : decodeOp op ws = .illegal ws ↔ op ∉ legalOpcodes := by
  unfold decodeOp
  split
  case h_33 => simp_all [legalOpcodes, opcodeWords]
  all_goals simp [legalOpcodes, opcodeWords]

/-- R68: a header word is illegal exactly when a reserved bit is set or its opcode is none of the 32. -/
theorem decode_eq_illegal_iff (w0 : Word) (ws : List Word) :
    decode (w0 :: ws) = .illegal ws ↔ ¬ (rsvField w0 = 0 ∧ opField w0 ∈ legalOpcodes) := by
  by_cases h : rsvField w0 = 0
  · simp [decode, h, decodeOp_eq_illegal_iff]
  · simp [decode, h]

end Sys2Proof

namespace Sys2Proof.Machine

/-- A step on an illegal header word takes that word and answers ILLEGAL_CMD (60_exceptions.md R153). -/
theorem step_of_illegal {s : State} {rest : List Word} (h : decode s.port = .illegal rest) :
    step s = .next ((s.setPort rest).raise .illegalCmd) := by
  rw [step, State.fetch, h]
  rfl

/-- Settles O42: the decoder refuses exactly the words outside R64's list, and a step on one raises the fault. -/
theorem headerIsLegalExactlyForThe32Opcodes : Obligations.HeaderIsLegalExactlyForThe32Opcodes :=
  fun w0 ws => ⟨decode_eq_illegal_iff w0 ws, fun _ hd hp => step_of_illegal (by rw [hp, hd])⟩

end Sys2Proof.Machine
end

section
/-!
PROOFS. BIND (40_construct.md R81): the binding registers, or BAD_DESCRIPTOR where the region does not fit.
-/

namespace Sys2Proof.Machine

/-- R81: the three words of BIND. -/
theorem encode_bind (base len : Word) : encode (.bind base len) = [0x01000000, base, len] := by
  rw [encode, Instr.opcode, Instr.operands, show headerWord 1 = 0x01000000 by decide]

/-- BIND of a region that fits the arena. -/
theorem exec_bind_of_fits {base len : Word} {s : State} (h : base.toNat + len.toNat ≤ s.cfg.arenaSize.val) :
    exec (.bind base len) s = .next ((s.setBinding base len).respond {}) := by
  rw [exec, execBind, if_pos ((s.fits_iff ..).mpr h)]

/-- BIND of a region that does not fit the arena. -/
theorem exec_bind_of_not_fits {base len : Word} {s : State} (h : s.cfg.arenaSize.val < base.toNat + len.toNat) :
    exec (.bind base len) s = .next (s.raise .badDescriptor) := by
  rw [exec, execBind, if_neg fun hf => absurd ((s.fits_iff ..).mp hf) (Nat.not_le.mpr h)]

/-- R81's corner case: no arena holds a region whose base and length are both all ones, since the sum does not wrap. -/
theorem arenaSize_lt_allOnes_add_allOnes (c : Config) :
    c.arenaSize.val < (0xFFFFFFFF : Word).toNat + (0xFFFFFFFF : Word).toNat :=
  c.arenaSize.isLt.trans (by decide)

/-- Settles O22: the two branches of the bound check; the all-ones region falls under the refusing one. -/
theorem bindSetsBaseAndLenOrRefusesTheDescriptor : Obligations.BindSetsBaseAndLenOrRefusesTheDescriptor :=
  ⟨encode_bind, fun _ _ _ h => exec_bind_of_not_fits h, fun _ _ _ h => exec_bind_of_fits h,
    fun s => exec_bind_of_not_fits (arenaSize_lt_allOnes_add_allOnes s.cfg)⟩

end Sys2Proof.Machine
end

section
/-!
PROOFS. Several fields written one after another, as a list of SETs in a bound state does it (42_set.md R112), and what
the bytes left depend on: the bytes before and `BASE`.
-/

namespace Sys2Proof.Machine

/-- Give the responses of the list, one after another (00_scope.md R18). -/
def State.respondAll (s : State) (rs : List Response) : State := { s with responses := s.responses ++ rs }

@[simp] theorem State.respondAll_base (s : State) (rs : List Response) : (s.respondAll rs).base = s.base := rfl
@[simp] theorem State.respondAll_len (s : State) (rs : List Response) : (s.respondAll rs).len = s.len := rfl

@[simp] theorem State.respondAll_nil (s : State) : s.respondAll [] = s := by
  simp [State.respondAll]

@[simp] theorem State.respondAll_respond (s : State) (r : Response) (rs : List Response) :
    (s.respond r).respondAll rs = s.respondAll (r :: rs) := by
  simp [State.respondAll, State.respond]

/-- Each field of the list is written with its value, the first first. -/
def State.putFields (s : State) (ps : List (Field × Word)) : State := ps.foldl (fun t p => t.putField p.1 p.2) s

@[simp] theorem State.putFields_nil (s : State) : s.putFields [] = s := rfl

@[simp] theorem State.putFields_cons (s : State) (p : Field × Word) (ps : List (Field × Word)) :
    s.putFields (p :: ps) = (s.putField p.1 p.2).putFields ps := rfl

/-- Writing fields neither reads nor changes the responses given. -/
@[simp] theorem State.putFields_respond (s : State) (r : Response) (ps : List (Field × Word)) :
    (s.respond r).putFields ps = (s.putFields ps).respond r := by
  induction ps generalizing s with
  | nil => rfl
  | cons p ps ih => exact ih (s.putField p.1 p.2)

/-- Writing fields changes the arena only. -/
theorem State.putFields_eq_setMem (s : State) (ps : List (Field × Word)) :
    s.putFields ps = s.setMem (s.putFields ps).mem := by
  induction ps generalizing s with
  | nil => rfl
  | cons p ps ih => exact ih (s.putField p.1 p.2)

@[simp] theorem State.putFields_base (s : State) (ps : List (Field × Word)) : (s.putFields ps).base = s.base :=
  (congrArg State.base (s.putFields_eq_setMem ps)).trans (s.setMem_base _)

@[simp] theorem State.putFields_len (s : State) (ps : List (Field × Word)) : (s.putFields ps).len = s.len :=
  (congrArg State.len (s.putFields_eq_setMem ps)).trans (s.setMem_len _)

@[simp] theorem State.putFields_responses (s : State) (ps : List (Field × Word)) :
    (s.putFields ps).responses = s.responses :=
  (congrArg State.responses (s.putFields_eq_setMem ps)).trans (s.setMem_responses _)

/-- Writing the same value into the same field at the same `BASE` keeps equal bytes equal. -/
theorem State.SameBytes.putField {s t : State} (h : s.SameBytes t) (hb : s.base = t.base) (f : Field) (v : Word) :
    (s.putField f v).SameBytes (t.putField f v) := by
  intro x
  apply BitVec.eq_of_getLsbD_eq
  intro i hi
  rw [State.getLsbD_read_putField _ _ _ _ hi, State.getLsbD_read_putField _ _ _ _ hi, hb, h x]

theorem State.SameBytes.putFields {s t : State} (h : s.SameBytes t) (hb : s.base = t.base)
    (ps : List (Field × Word)) : (s.putFields ps).SameBytes (t.putFields ps) := by
  induction ps generalizing s t with
  | nil => exact h
  | cons p ps ih => exact ih (h.putField hb p.1 p.2) hb

/-- In a bound state a list of SETs writes its fields in order and gives one `OK` response for each. -/
theorem State.Bound.execAll_sets {s : State} (h : s.Bound) {ws : List (Instr × Field × Word)}
    (hw : ∀ w ∈ ws, ∀ t, exec w.1 t = writeField w.2.1 w.2.2 t) :
    execAll (ws.map Prod.fst) s = .next ((s.putFields (ws.map Prod.snd)).respondAll (ws.map fun _ => {})) := by
  induction ws generalizing s with
  | nil => simp [execAll]
  | cons w ws ih =>
    have hhead : exec w.1 s = .next ((s.putField w.2.1 w.2.2).respond {}) :=
      (hw w List.mem_cons_self s).trans (h.writeField_eq w.2.1 w.2.2)
    have htail := ih ((h.putField w.2.1 w.2.2).respond {}) fun j hj => hw j (List.mem_cons_of_mem w hj)
    rw [List.map_cons, execAll_cons hhead, htail]
    simp

end Sys2Proof.Machine
end

section
/-!
PROOFS. BUILD (40_construct.md R83): the window zeroed and eight fields written, the same that its eight SETs write.
-/

namespace Sys2Proof.Machine

/-- The eight SETs of BUILD in order (R83), each with the field and the value it writes. -/
def buildSets (o se mig pad pkey qpn ack psn : Word) : List (Instr × Field × Word) :=
  [(.setOpcode o, .opcode, o), (.setSe se, .se, se), (.setMig mig, .mig, mig), (.setPad pad, .pad, pad),
   (.setPkey pkey, .pkey, pkey), (.setQpn qpn, .qpn, qpn), (.setAck ack, .ack, ack), (.setPsn psn, .psn, psn)]

/-- Each of the eight commands is the generic SET at its field (42_set.md R112). -/
theorem exec_of_mem_buildSets {o se mig pad pkey qpn ack psn : Word} :
    ∀ w ∈ buildSets o se mig pad pkey qpn ack psn, ∀ t, exec w.1 t = writeField w.2.1 w.2.2 t := by
  simp [buildSets, exec, execSetOpcode, execSetSe, execSetMig, execSetPad, execSetPkey, execSetQpn, execSetAck,
    execSetPsn]

/-- The state BUILD binds and zeroes before the field writes. -/
def State.freshWindow (s : State) (base : Word) : State := (s.setBinding base 12).zeroWindow

@[simp] theorem State.freshWindow_base (s : State) (base : Word) : (s.freshWindow base).base = base := rfl
@[simp] theorem State.freshWindow_len (s : State) (base : Word) : (s.freshWindow base).len = 12 := rfl
@[simp] theorem State.freshWindow_responses (s : State) (base : Word) :
    (s.freshWindow base).responses = s.responses := rfl

/-- R83: the ten words of BUILD. -/
theorem encode_build (base o se mig pad pkey qpn ack psn : Word) : encode (.build base o se mig pad pkey qpn ack psn) =
    [0x02000000, base, o, se, mig, pad, pkey, qpn, ack, psn] := by
  rw [encode, Instr.opcode, Instr.operands, show headerWord 2 = 0x02000000 by decide]

/-- BUILD at a region that fits the arena: the eight fields of its SETs, written on the fresh window. -/
theorem exec_build_of_fits {base o se mig pad pkey qpn ack psn : Word} {s : State}
    (h : base.toNat + 12 ≤ s.cfg.arenaSize.val) :
    exec (.build base o se mig pad pkey qpn ack psn) s = .next
      (((s.freshWindow base).putFields ((buildSets o se mig pad pkey qpn ack psn).map Prod.snd)).respond {}) := by
  rw [exec, execBuild, if_pos ((s.fits_iff ..).mpr h)]
  rfl

/-- BUILD at a region that does not fit the arena. -/
theorem exec_build_of_not_fits {base o se mig pad pkey qpn ack psn : Word} {s : State}
    (h : s.cfg.arenaSize.val < base.toNat + 12) :
    exec (.build base o se mig pad pkey qpn ack psn) s = .next (s.raise .badDescriptor) := by
  rw [exec, execBuild, if_neg fun hf => absurd ((s.fits_iff ..).mp hf) (Nat.not_le.mpr h)]

/-- A state bound to twelve bytes that fit the arena. -/
theorem State.bound_of_len_eq_twelve {s : State} (hl : s.len = 12) (h : s.base.toNat + 12 ≤ s.cfg.arenaSize.val) :
    s.Bound := by
  have hlen : s.len.toNat = 12 := by rw [hl]; rfl
  exact ⟨hlen.ge, by rwa [State.BindingInArena, hlen]⟩

/-- Zeroing stores that many zero bytes and nothing else. -/
theorem State.stored_zero (s : State) (a n : Nat) :
    s.Stored { s with mem := s.mem.zero a n } a (List.replicate n 0) := by
  refine ⟨fun k b hb => ?_, fun x hx => ?_⟩
  · obtain ⟨hk, rfl⟩ := List.getElem?_eq_some_iff.mp hb
    rw [List.length_replicate] at hk
    rw [List.getElem_replicate]
    exact (s.mem.read_zero a n _).trans (if_pos (by omega))
  · rw [List.length_replicate] at hx
    exact (s.mem.read_zero a n x).trans (if_neg (by omega))

/-- From one state, two stores of the same bytes at the same address leave the same bytes. -/
theorem State.Stored.sameBytes {s t u : State} {a : Nat} {bs : List Byte} (ht : s.Stored t a bs)
    (hu : s.Stored u a bs) : t.SameBytes u := by
  obtain ⟨hread, hframe⟩ := ht
  obtain ⟨hread', hframe'⟩ := hu
  intro x
  by_cases hx : x < a ∨ a + bs.length ≤ x
  · rw [hframe x hx, hframe' x hx]
  · obtain ⟨k, rfl⟩ := Nat.exists_eq_add_of_le (show a ≤ x by omega)
    have hk := List.getElem?_eq_getElem (show k < bs.length by omega)
    rw [hread k _ hk, hread' k _ hk]

/-- Settles O23: BUILD and the eight SETs write the same fields on the same fresh window and differ in the responses. -/
theorem buildZeroesTheWindowAndRunsTheEightSetters : Obligations.BuildZeroesTheWindowAndRunsTheEightSetters := by
  refine ⟨encode_build, fun _ _ _ _ _ _ _ _ _ _ h => exec_build_of_not_fits h, ?_⟩
  intro base o se mig pad pkey qpn ack psn s h
  have hbound : (s.freshWindow base).Bound := State.bound_of_len_eq_twelve rfl h
  refine ⟨_, hbound.execAll_sets exec_of_mem_buildSets, s.stored_zero _ _, ?_⟩
  rw [exec_build_of_fits h]
  simp [State.respond, State.respondAll]

/-- R85 for any list of field writes: on BUILD's fresh window, and on twelve zeroed bytes bound at the same address,
they leave the same bytes and the same binding, whatever is answered. -/
theorem State.putFields_freshWindow_agrees {s z : State} {base : Word}
    (hzero : s.Stored z base.toNat (List.replicate 12 0)) (ps : List (Field × Word)) (r r' : Response)
    (rs : List Response) :
    (((s.freshWindow base).putFields ps).respond r).SameBytes
        ((((z.setBinding base 12).respond r').putFields ps).respondAll rs) ∧
      (((s.freshWindow base).putFields ps).respond r).base =
        ((((z.setBinding base 12).respond r').putFields ps).respondAll rs).base ∧
      (((s.freshWindow base).putFields ps).respond r).len =
        ((((z.setBinding base 12).respond r').putFields ps).respondAll rs).len := by
  have hbytes : (s.freshWindow base).SameBytes ((z.setBinding base 12).respond r') :=
    (s.stored_zero base.toNat 12).sameBytes hzero
  exact ⟨hbytes.putFields rfl ps, by simp, by simp⟩

/-- Settles O25: BIND answers `OK`, the SETs write BUILD's fields, and both sides write them on the same bytes. -/
theorem buildEqualsBindThenSettersOnZeroedBytes : Obligations.BuildEqualsBindThenSettersOnZeroedBytes := by
  intro base o se mig pad pkey qpn ack psn s z h hz hzero
  have hfits : base.toNat + 12 ≤ z.cfg.arenaSize.val := by rw [hz]; exact h
  have hbound : ((z.setBinding base 12).respond {}).Bound := State.bound_of_len_eq_twelve rfl hfits
  exact ⟨_, _, exec_build_of_fits h,
    (execAll_cons (exec_bind_of_fits hfits) _).trans (hbound.execAll_sets exec_of_mem_buildSets),
    State.putFields_freshWindow_agrees hzero _ _ _ _⟩

end Sys2Proof.Machine
end

section
/-!
PROOFS. What a GET reads after a SET (41_get.md R104, 42_set.md R112): the truncated operand in the field written,
and the old value in every other field, because no two fields share a bit of the window (10_state.md R23).
-/

namespace Sys2Proof.Machine

/-- Two fields that hold the same bit of the window are one field. -/
theorem Field.eq_of_holdsBit {f g : Field} {k i : Nat} (hk : k < 12) (hi : i < 8) (hf : f.holdsBit k i = true)
    (hg : g.holdsBit k i = true) : f = g := by
  have hof := f.holdsBit_eq ⟨k, hk⟩ ⟨i, hi⟩
  have hog := g.holdsBit_eq ⟨k, hk⟩ ⟨i, hi⟩
  rw [hf, eq_comm, beq_iff_eq] at hof
  rw [hg, eq_comm, beq_iff_eq] at hog
  rw [hof, hog]

/-- A bit of the window that a field does not hold stays when the field is written. -/
theorem State.getLsbD_headerByte_putField_other (s : State) {f : Field} (v : Word) {k i : Nat} (hi : i < 8)
    (h : f.holdsBit k i = false) : ((s.putField f v).headerByte k).getLsbD i = (s.headerByte k).getLsbD i := by
  rw [State.headerByte, State.putField_base, s.getLsbD_read_putField f v _ hi]
  refine if_neg fun ⟨hlo, hhi, hbit⟩ => ?_
  have hplace : f.size - 1 - (s.base.toNat + k - (s.base.toNat + f.off)) = f.off + f.size - 1 - k := by omega
  rw [hplace] at hbit
  have hheld : f.holdsBit k i = true := by
    simp only [Field.holdsBit, Bool.and_eq_true, decide_eq_true_eq]
    exact ⟨by omega, hbit⟩
  simp [hheld] at h

/-- The place in the window of bit `i` of a field's value is held by the field. -/
theorem Field.holdsBit_of_lt_width (f : Field) {i : Nat} (hi : i < f.width) :
    f.holdsBit (f.off + (f.size - 1 - (f.shift + i) / 8)) ((f.shift + i) % 8) = true := by
  have hw := f.width_le
  simp only [Field.holdsBit, Bool.and_eq_true, decide_eq_true_eq]
  omega

/-- Writing a field leaves the value of every other field. -/
theorem State.getField_putField_other (s : State) {f g : Field} (v : Word) (h : f ≠ g) :
    (s.putField g v).getField f = s.getField f := by
  apply BitVec.eq_of_getLsbD_eq
  intro i _
  rw [State.getLsbD_getField, State.getLsbD_getField]
  by_cases hi : i < f.width
  · have hspan := f.span_le
    have hw := f.width_le
    have hnot : g.holdsBit (f.off + (f.size - 1 - (f.shift + i) / 8)) ((f.shift + i) % 8) = false :=
      Bool.eq_false_iff.mpr fun hg =>
        h (Field.eq_of_holdsBit (by omega) (by omega) (f.holdsBit_of_lt_width hi) hg)
    rw [s.getLsbD_headerByte_putField_other v (by omega) hnot]
  · simp [hi]

/-- A field just written holds its operand truncated to its width. -/
theorem State.getField_putField_same (s : State) (f : Field) (v : Word) :
    (s.putField f v).getField f = trunc f.width v := by
  have hw := f.width_le
  apply BitVec.eq_of_getLsbD_eq
  intro i _
  rw [State.getField, State.putField_base, State.putField_mem, Field.getLsbD_extract,
    Memory.getLsbD_readBytes_writeBytes _ _ _ (by omega), getLsbD_trunc]
  by_cases hi : i < f.width
  · have hc : f.shift + i < 8 * f.size := by omega
    rw [Field.getLsbD_insert _ _ _ (by omega)]
    simp [hi, hc]
  · simp [hi]

/-- A response changes the value of no field. -/
@[simp] theorem State.getField_respond (s : State) (r : Response) (f : Field) :
    (s.respond r).getField f = s.getField f := rfl

/-- Writing a list of fields leaves the value of every field that is not in it. -/
theorem State.getField_putFields_other (s : State) {f : Field} {ps : List (Field × Word)}
    (h : f ∉ ps.map Prod.fst) : (s.putFields ps).getField f = s.getField f := by
  induction ps generalizing s with
  | nil => rfl
  | cons p ps ih =>
    rw [List.map_cons, List.mem_cons, not_or] at h
    rw [State.putFields_cons, ih _ h.2, s.getField_putField_other p.2 h.1]

/-- On BUILD's zeroed window every field is 0. -/
theorem State.getField_freshWindow (s : State) (base : Word) (f : Field) : (s.freshWindow base).getField f = 0 := by
  have hzero : ∀ k, k < 12 → (s.freshWindow base).headerByte k = 0 := fun k hk =>
    (s.mem.read_zero base.toNat 12 (base.toNat + k)).trans (if_pos (by omega))
  apply BitVec.eq_of_getLsbD_eq
  intro i _
  have hspan := f.span_le
  have hw := f.width_le
  rw [State.getLsbD_getField]
  by_cases hi : i < f.width
  · rw [hzero _ (by omega)]
    simp
  · simp [hi]

/-- Writing fields leaves the block bound. -/
theorem State.Bound.putFields {s : State} (h : s.Bound) (ps : List (Field × Word)) : (s.putFields ps).Bound := by
  rw [State.putFields_eq_setMem]
  exact ⟨h.long, h.binding⟩

end Sys2Proof.Machine
end

section
/-!
PROOFS. The eleven data fields as commands (10_state.md R26), and that their GETs change nothing and answer from `MEM`,
`BASE` and `LEN` alone (41_get.md R104).
-/

namespace Sys2Proof.Machine

/-- A command that is the GET of a field answers SHORT_WINDOW while `LEN < 12`. -/
theorem answers_of_readField_short {i : Instr} {f : Field} (hx : ∀ s, exec i s = readField f s) {s : State}
    (hs : s.len.toNat < 12) : Answers i s { st := .shortWindow } :=
  (hx s).trans (State.onWindow_short _ hs)

/-- In a bound state a command that is the GET of a field answers the field's value. -/
theorem State.Bound.answers_of_readField {i : Instr} {f : Field} (hx : ∀ s, exec i s = readField f s) {s : State}
    (hs : s.Bound) {v : Word} (hv : s.getField f = v) : Answers i s { d0 := v } :=
  hv ▸ (hx s).trans (hs.readField_eq f)

/-- R26: the eleven fields that have a GET and a SET, in the order of R23. -/
def unreservedFields : List Field := allFields.filter fun f => !f.reserved

theorem unreservedFields_nodup : unreservedFields.Nodup := allFields_nodup.filter _

/-- The GET, the SET and the width of a row of `dataFields` are those of the field. -/
structure RowOf (p : Instr × (Word → Instr) × Nat) (f : Field) : Prop where
  get : ∀ s, exec p.1 s = readField f s
  set : ∀ v s, exec (p.2.1 v) s = writeField f v s
  width : p.2.2 = f.width

/-- Row by row, `dataFields` lists the commands and the width of the unreserved fields. -/
theorem dataFields_rowOf : List.Forall₂ RowOf dataFields unreservedFields := by
  rw [show unreservedFields =
    [.opcode, .se, .mig, .pad, .tver, .pkey, .fecn, .becn, .qpn, .ack, .psn] by decide]
  repeat' refine .cons ⟨fun _ => rfl, fun _ _ => rfl, rfl⟩ ?_
  exact .nil

/-- The field at a place of `dataFields`. -/
theorem exists_rowOf_of_getElem? {j : Nat} {p : Instr × (Word → Instr) × Nat} (h : dataFields[j]? = some p) :
    ∃ f, unreservedFields[j]? = some f ∧ RowOf p f := by
  obtain ⟨hj, rfl⟩ := List.getElem?_eq_some_iff.mp h
  have hj' : j < unreservedFields.length := dataFields_rowOf.length_eq ▸ hj
  exact ⟨_, List.getElem?_eq_getElem hj', dataFields_rowOf.get hj hj'⟩

theorem exists_rowOf_of_mem {p : Instr × (Word → Instr) × Nat} (h : p ∈ dataFields) : ∃ f, RowOf p f := by
  obtain ⟨_, hj⟩ := List.mem_iff_getElem?.mp h
  obtain ⟨f, _, hrow⟩ := exists_rowOf_of_getElem? hj
  exact ⟨f, hrow⟩

/-- Rows at different places belong to different fields. -/
theorem exists_rowOf_pair {j k : Nat} {p q : Instr × (Word → Instr) × Nat} (hp : dataFields[j]? = some p)
    (hq : dataFields[k]? = some q) (hjk : j ≠ k) : ∃ f g, f ≠ g ∧ RowOf p f ∧ RowOf q g := by
  obtain ⟨f, hf, hrow⟩ := exists_rowOf_of_getElem? hp
  obtain ⟨g, hg, hrow'⟩ := exists_rowOf_of_getElem? hq
  obtain ⟨hj, rfl⟩ := List.getElem?_eq_some_iff.mp hf
  obtain ⟨hk, rfl⟩ := List.getElem?_eq_some_iff.mp hg
  exact ⟨_, _, fun he => hjk ((unreservedFields_nodup.getElem_inj_iff).mp he), hrow, hrow'⟩

/-- The binding and the parameters decide whether the block is bound. -/
theorem State.Bound.congr {s s' : State} (h : s.Bound) (hb : s'.base = s.base) (hl : s'.len = s.len)
    (hc : s'.cfg = s.cfg) : s'.Bound :=
  ⟨hl ▸ h.long, by rw [State.BindingInArena, hb, hl, hc]; exact h.binding⟩

/-- `MEM` and `BASE` decide the value of a field. -/
theorem State.getField_congr {s s' : State} (hm : s'.mem = s.mem) (hb : s'.base = s.base) (f : Field) :
    s'.getField f = s.getField f := by
  rw [State.getField, State.getField, hm, hb]

/-- Settles O6: the response of a GET is SHORT_WINDOW or the field, which a SET of another field leaves. -/
theorem getIsPure : Obligations.GetIsPure := by
  refine ⟨fun p hp s hs => ?_, fun j k p q hp hq hjk v s hs => ?_⟩
  · obtain ⟨f, hrow⟩ := exists_rowOf_of_mem hp
    rcases hs with hshort | hbound
    · exact ⟨_, answers_of_readField_short hrow.get hshort,
        fun s' _ _ hl _ => answers_of_readField_short hrow.get (hl ▸ hshort)⟩
    · exact ⟨_, hbound.answers_of_readField hrow.get rfl, fun s' hm hb hl hc =>
        (hbound.congr hb hl hc).answers_of_readField hrow.get (State.getField_congr hm hb f)⟩
  · obtain ⟨f, g, hne, hrow, hrow'⟩ := exists_rowOf_pair hp hq hjk
    have hbound := (hs.putField g v).respond {}
    exact ⟨_, _, (hrow'.set v s).trans (hs.writeField_eq g v), hs.answers_of_readField hrow.get rfl,
      hbound.answers_of_readField hrow.get (s.getField_putField_other v hne)⟩

end Sys2Proof.Machine
end

section
/-!
PROOFS. The rule of each GET (41_get.md R93 to R103): its command word, and the window bits it answers.
-/

namespace Sys2Proof.Machine

/-- The rule of a command that is the GET of a field, from its word and the field's value. -/
theorem getRule_of_readField {i : Instr} {f : Field} {w0 : Word} {value : State → Word}
    (hx : ∀ s, exec i s = readField f s) (hw : encode i = [w0]) (hv : ∀ s : State, s.getField f = value s) :
    GetRule i w0 value :=
  ⟨hw, fun _ hs => answers_of_readField_short hx hs, fun s hs => hs.answers_of_readField hx (hv s)⟩

/-- A field that is the run of bits `hi .. lo` of one window byte (10_state.md R24). -/
theorem State.getField_run (s : State) {f : Field} {k hi lo : Nat}
    (h : f.off + (f.size - 1 - f.shift / 8) = k ∧ f.shift % 8 = lo ∧ lo + f.width = hi + 1 ∧ lo ≤ hi ∧ hi < 8) :
    s.getField f = ((s.headerByte k).extractLsb hi lo).setWidth 32 := by
  obtain ⟨rfl, rfl, hhi, hle, h8⟩ := h
  apply BitVec.eq_of_getLsbD_eq
  intro i hi32
  rw [State.getLsbD_getField, BitVec.getLsbD_setWidth, BitVec.getLsbD_extractLsb]
  by_cases hw : i < f.width
  · have hdiv : (f.shift + i) / 8 = f.shift / 8 := by omega
    have hmod : (f.shift + i) % 8 = f.shift % 8 + i := by omega
    have hlen : i ≤ hi - f.shift % 8 := by omega
    simp [hw, hi32, hdiv, hmod, hlen]
  · have hlen : ¬ i ≤ hi - f.shift % 8 := by omega
    simp [hw, hlen]

/-- PartitionKey is the window bytes 2 and 3, big-endian (41_get.md R98). -/
theorem State.getField_pkey (s : State) : s.getField .pkey =
    BitVec.ofNat 32 ((s.headerByte 2).toNat * 256 + (s.headerByte 3).toNat) := by
  have h2 := (s.headerByte 2).isLt
  have h3 := (s.headerByte 3).isLt
  apply BitVec.eq_of_toNat_eq
  rw [State.getField, Field.toNat_extract]
  show (s.mem.readBytes (s.base.toNat + 2) 2).toNat / 2 ^ 0 % 2 ^ 16 = _
  rw [Memory.toNat_readBytes_two, BitVec.toNat_ofNat]
  simp only [State.headerByte, Nat.add_assoc, Nat.reduceAdd] at h2 h3 ⊢
  omega

/-- 41_get.md R97: BUILD writes every field of byte 1 but TransportHeaderVersion, which stays zeroed. -/
theorem tverZeroAfterBuild : TverZeroAfterBuild := by
  intro base o se mig pad pkey qpn ack psn s h
  have hfresh : (s.freshWindow base).Bound := State.bound_of_len_eq_twelve rfl h
  have hkeep : .tver ∉ ((buildSets o se mig pad pkey qpn ack psn).map Prod.snd).map Prod.fst := by simp [buildSets]
  have htver := (State.getField_putFields_other _ hkeep).trans (s.getField_freshWindow base .tver)
  exact ⟨_, exec_build_of_fits h, ((hfresh.putFields _).respond {}).answers_of_readField (fun _ => rfl)
    ((State.getField_respond ..).trans htver)⟩

/-- 41_get.md R96: PadCount keeps the low two bits of the operand 7. -/
theorem padThreeAfterSetPadSeven : PadThreeAfterSetPadSeven := by
  intro s hs
  have hpad : (s.putField .pad 7).getField .pad = 3 := (s.getField_putField_same .pad 7).trans (by decide)
  exact ⟨_, hs.writeField_eq .pad 7, ((hs.putField .pad 7).respond {}).answers_of_readField (fun _ => rfl) hpad⟩

/-- Settles O1: OpCode is window byte 0. -/
theorem getOpcodeReadsByteZero : Obligations.GetOpcodeReadsByteZero :=
  getRule_of_readField (fun _ => rfl) (by decide) State.getField_opcode

/-- Settles O2: each of the four fields is a run of bits of window byte 1; the corner cases are those of R97 and R96. -/
theorem getReadsTheFieldsOfByteOne : Obligations.GetReadsTheFieldsOfByteOne :=
  ⟨getRule_of_readField (f := .se) (fun _ => rfl) (by decide) fun s => s.getField_run (by decide),
    getRule_of_readField (f := .mig) (fun _ => rfl) (by decide) fun s => s.getField_run (by decide),
    getRule_of_readField (f := .pad) (fun _ => rfl) (by decide) fun s => s.getField_run (by decide),
    getRule_of_readField (f := .tver) (fun _ => rfl) (by decide) fun s => s.getField_run (by decide),
    tverZeroAfterBuild, padThreeAfterSetPadSeven⟩

/-- Settles O3: PartitionKey is window bytes 2 and 3. -/
theorem getPkeyReadsBytesTwoAndThreeBigEndian : Obligations.GetPkeyReadsBytesTwoAndThreeBigEndian :=
  getRule_of_readField (fun _ => rfl) (by decide) State.getField_pkey

/-- Settles O4: FECN and BECN are bits of window byte 4, QueuePairNumber the three bytes after it. -/
theorem getReadsTheFieldsOfTheSecondWord : Obligations.GetReadsTheFieldsOfTheSecondWord :=
  ⟨getRule_of_readField (f := .fecn) (fun _ => rfl) (by decide) fun s => s.getField_run (by decide),
    getRule_of_readField (f := .becn) (fun _ => rfl) (by decide) fun s => s.getField_run (by decide),
    getRule_of_readField (fun _ => rfl) (by decide) State.getField_qpn⟩

/-- Settles O5: AckRequest is a bit of window byte 8, PacketSequenceNumber the three bytes after it. -/
theorem getReadsTheFieldsOfTheThirdWord : Obligations.GetReadsTheFieldsOfTheThirdWord :=
  ⟨getRule_of_readField (f := .ack) (fun _ => rfl) (by decide) fun s => s.getField_run (by decide),
    getRule_of_readField (fun _ => rfl) (by decide) State.getField_psn⟩

end Sys2Proof.Machine
end

section
/-!
PROOFS. What writing a field does to each window byte (42_set.md R112), by the bits the field holds of it: the rule of a
byte that is all the field's, of one that holds the whole field as a run of bits, and of one that holds none of it.
-/

namespace Sys2Proof.Machine

/-- Where a bit of the window belongs to a field: the span of its container, and the bit's place in its run. -/
theorem Field.holdsBit_iff (f : Field) (k i : Nat) : f.holdsBit k i = true ↔
    (f.off ≤ k ∧ k < f.off + f.size) ∧
      (f.shift ≤ 8 * (f.off + f.size - 1 - k) + i ∧ 8 * (f.off + f.size - 1 - k) + i < f.shift + f.width) := by
  simp only [Field.holdsBit, Bool.and_eq_true, decide_eq_true_eq]

theorem Field.holdsBit_eq_false_iff (f : Field) (k i : Nat) : f.holdsBit k i = false ↔
    ¬ ((f.off ≤ k ∧ k < f.off + f.size) ∧
      (f.shift ≤ 8 * (f.off + f.size - 1 - k) + i ∧ 8 * (f.off + f.size - 1 - k) + i < f.shift + f.width)) := by
  rw [← f.holdsBit_iff, Bool.not_eq_true]

/-- A bit of the window that a field holds comes from the operand when the field is written. -/
theorem State.getLsbD_headerByte_putField_held (s : State) {f : Field} (v : Word) {k i : Nat} (hi : i < 8)
    (h : f.holdsBit k i = true) : ((s.putField f v).headerByte k).getLsbD i =
      v.getLsbD (8 * (f.off + f.size - 1 - k) + i - f.shift) := by
  obtain ⟨⟨hlo, hhi⟩, hbit⟩ := (f.holdsBit_iff k i).mp h
  obtain ⟨j, rfl⟩ := Nat.exists_eq_add_of_le hlo
  have hplace : f.off + f.size - 1 - (f.off + j) = f.size - 1 - j := by omega
  rw [hplace] at hbit ⊢
  rw [State.headerByte, State.putField_base, ← Nat.add_assoc, s.getLsbD_read_putField_at f v (by omega) hi, if_pos hbit]

/-- A window byte that is all the field's becomes the operand's byte at its place. -/
theorem State.headerByte_putField_whole (s : State) {f : Field} (v : Word) {k lo : Nat}
    (h : ∀ i : Fin 8, f.holdsBit k i = true) (hlo : 8 * (f.off + f.size - 1 - k) = f.shift + lo) :
    (s.putField f v).headerByte k = v.extractLsb' lo 8 := by
  apply BitVec.eq_of_getLsbD_eq
  intro i hi
  have hplace : 8 * (f.off + f.size - 1 - k) + i - f.shift = lo + i := by omega
  rw [s.getLsbD_headerByte_putField_held v hi (h ⟨i, hi⟩), hplace]
  simp [hi]

/-- A window byte that holds the whole field, `w = hi + 1` bits from bit `lo` up: the byte's other bits, under the mask
`m`, stay, and the operand's low `w` bits go to their place. -/
theorem State.headerByte_putField_run (s : State) {f : Field} (v : Word) {k lo hi : Nat} {m : Byte}
    (hk : f.off + (f.size - 1 - f.shift / 8) = k ∧ f.shift % 8 = lo ∧ f.width = hi + 1)
    (hm : ∀ i : Fin 8, m.getLsbD i = !f.holdsBit k i) :
    (s.putField f v).headerByte k = (s.headerByte k &&& m) ||| ((v.extractLsb hi 0).setWidth 8 <<< lo) := by
  obtain ⟨hbyte, hlo, hw⟩ := hk
  have hfit := f.width_le
  apply BitVec.eq_of_getLsbD_eq
  intro i hi8
  have hmi : m.getLsbD i = !f.holdsBit k i := hm ⟨i, hi8⟩
  rw [BitVec.getLsbD_or, BitVec.getLsbD_and, hmi]
  by_cases hheld : f.holdsBit k i = true
  · obtain ⟨_, hrun⟩ := (f.holdsBit_iff k i).mp hheld
    have hplace : 8 * (f.off + f.size - 1 - k) + i - f.shift = i - lo := by omega
    have hge : ¬ i < lo := by omega
    have hle : i - lo ≤ hi := by omega
    rw [s.getLsbD_headerByte_putField_held v hi8 hheld, hplace]
    simp [hheld, hi8, hge, hle]
  · have hout : i < lo ∨ ¬ i - lo ≤ hi := by
      rw [Field.holdsBit_iff] at hheld
      omega
    rw [s.getLsbD_headerByte_putField_other v hi8 (Bool.eq_false_iff.mpr hheld)]
    rcases hout with hlt | hgt
    · simp [hheld, hi8, hlt]
    · simp [hheld, hi8, hgt]

/-- A window byte of which the field holds no bit stays. -/
theorem State.headerByte_putField_unheld (s : State) {f : Field} (v : Word) {k : Nat}
    (h : ∀ i : Fin 8, f.holdsBit k i = false) : (s.putField f v).headerByte k = s.headerByte k :=
  BitVec.eq_of_getLsbD_eq fun i hi => s.getLsbD_headerByte_putField_other v hi (h ⟨i, hi⟩)

/-- The bits of a window byte that another field holds, those under the mask `m`, stay. -/
theorem State.headerByte_and_putField_other (s : State) {f g : Field} (v : Word) {k : Nat} {m : Byte} (hk : k < 12)
    (hm : ∀ i : Fin 8, m.getLsbD i = true → g.holdsBit k i = true) (hne : f ≠ g) :
    (s.putField f v).headerByte k &&& m = s.headerByte k &&& m := by
  apply BitVec.eq_of_getLsbD_eq
  intro i hi
  rw [BitVec.getLsbD_and, BitVec.getLsbD_and]
  by_cases hmi : m.getLsbD i = true
  · have hnot : f.holdsBit k i = false :=
      Bool.eq_false_iff.mpr fun hf => hne (Field.eq_of_holdsBit hk hi hf (hm ⟨i, hi⟩ hmi))
    rw [s.getLsbD_headerByte_putField_other v hi hnot]
  · simp [hmi]

end Sys2Proof.Machine
end

section
/-!
PROOFS. The rule of each SET (42_set.md R113 to R123): its words, and the bytes of its container that it stores.
-/

namespace Sys2Proof.Machine

/-- The bytes of a field's container, the lowest address first. -/
def State.containerBytes (s : State) (f : Field) : List Byte :=
  (List.range f.size).map fun k => s.headerByte (f.off + k)

/-- Writing a field stores the bytes its container then holds, and nothing else. -/
theorem State.stored_putField (s : State) (f : Field) (v : Word) :
    s.Stored (s.putField f v) (s.base.toNat + f.off) ((s.putField f v).containerBytes f) := by
  refine ⟨fun k b hb => ?_, fun x hx => s.read_putField_other f v (by simpa [State.containerBytes] using hx)⟩
  obtain ⟨_, rfl⟩ := List.getElem?_eq_some_iff.mp hb
  simp [State.containerBytes, State.headerByte, Nat.add_assoc]

/-- The rule of a command that is the SET of a field, from its words and the bytes its container then holds. -/
theorem setRule_of_writeField {mk : Word → Instr} {f : Field} {op : Nat} {w0 : Word}
    {bytes : State → Word → List Byte} (hx : ∀ v s, exec (mk v) s = writeField f v s)
    (he : ∀ v, encode (mk v) = [headerWord op, v]) (hw : headerWord op = w0)
    (hb : ∀ (s : State) v, (s.putField f v).containerBytes f = bytes s v) : SetRule mk w0 f.off bytes :=
  ⟨fun v => hw ▸ he v, fun v s hs => (hx v s).trans (State.onWindow_short _ hs),
    fun v s hs => ⟨_, (hx v s).trans (hs.writeField_eq f v), rfl, hb s v ▸ s.stored_putField f v⟩⟩

theorem State.containerBytes_of_size_one (s : State) {f : Field} (hn : f.size = 1) :
    s.containerBytes f = [s.headerByte f.off] := by
  rw [State.containerBytes, hn]
  rfl

theorem State.containerBytes_of_size_four (s : State) {f : Field} (hn : f.size = 4) : s.containerBytes f =
    [s.headerByte f.off, s.headerByte (f.off + 1), s.headerByte (f.off + 2), s.headerByte (f.off + 3)] := by
  rw [State.containerBytes, hn]
  rfl

/-- A field that is a run of bits of a 1-byte container. -/
theorem State.containerBytes_putField_run (s : State) {f : Field} (v : Word) {lo hi : Nat} {m : Byte}
    (hf : f.size = 1 ∧ f.shift = lo ∧ f.width = hi + 1) (hm : ∀ i : Fin 8, m.getLsbD i = !f.holdsBit f.off i) :
    (s.putField f v).containerBytes f =
      [(s.headerByte f.off &&& m) ||| ((v.extractLsb hi 0).setWidth 8 <<< lo)] := by
  obtain ⟨hn, hsh, hw⟩ := hf
  have hfit := f.width_le
  rw [State.containerBytes_of_size_one _ hn, s.headerByte_putField_run (lo := lo) (hi := hi) v (by omega) hm]

/-- A field that is one bit of the first byte of a 4-byte container: the other three bytes stay. -/
theorem State.containerBytes_putField_bit (s : State) {f : Field} (v : Word) {lo : Nat} {m : Byte}
    (hf : f.size = 4 ∧ f.shift = 24 + lo ∧ f.width = 1) (hm : ∀ i : Fin 8, m.getLsbD i = !f.holdsBit f.off i) :
    (s.putField f v).containerBytes f =
      [(s.headerByte f.off &&& m) ||| ((v.extractLsb 0 0).setWidth 8 <<< lo), s.headerByte (f.off + 1),
        s.headerByte (f.off + 2), s.headerByte (f.off + 3)] := by
  obtain ⟨hn, hsh, hw⟩ := hf
  have hfit := f.width_le
  have hunheld : ∀ k, f.off < k → ∀ i : Fin 8, f.holdsBit k i = false := fun k hk i => by
    rw [Field.holdsBit_eq_false_iff]
    omega
  rw [State.containerBytes_of_size_four _ hn, s.headerByte_putField_run (lo := lo) (hi := 0) v (by omega) hm,
    s.headerByte_putField_unheld v (hunheld _ (by omega)), s.headerByte_putField_unheld v (hunheld _ (by omega)),
    s.headerByte_putField_unheld v (hunheld _ (by omega))]

/-- A field that is the last three bytes of a 4-byte container: its first byte stays. -/
theorem State.containerBytes_putField_low24 (s : State) {f : Field} (v : Word)
    (hf : f.size = 4 ∧ f.shift = 0 ∧ f.width = 24) :
    (s.putField f v).containerBytes f =
      [s.headerByte f.off, v.extractLsb 23 16, v.extractLsb 15 8, v.extractLsb 7 0] := by
  obtain ⟨hn, hsh, hw⟩ := hf
  have hunheld : ∀ i : Fin 8, f.holdsBit f.off i = false := fun i => by
    rw [Field.holdsBit_eq_false_iff]
    omega
  have hheld : ∀ k, f.off < k → k < f.off + 4 → ∀ i : Fin 8, f.holdsBit k i = true := fun k hlo hhi i => by
    rw [Field.holdsBit_iff]
    omega
  rw [State.containerBytes_of_size_four _ hn, s.headerByte_putField_unheld v hunheld,
    s.headerByte_putField_whole v (lo := 16) (hheld _ (by omega) (by omega)) (by omega),
    s.headerByte_putField_whole v (lo := 8) (hheld _ (by omega) (by omega)) (by omega),
    s.headerByte_putField_whole v (lo := 0) (hheld _ (by omega) (by omega)) (by omega)]
  rfl

/-- PartitionKey is both bytes of its container (42_set.md R118). -/
theorem State.containerBytes_putField_pkey (s : State) (v : Word) :
    (s.putField .pkey v).containerBytes .pkey = [v.extractLsb 15 8, v.extractLsb 7 0] :=
  congrArg₂ (fun b c => [b, c]) (s.headerByte_putField_whole v (k := 2) (lo := 8) (by decide) rfl)
    (s.headerByte_putField_whole v (k := 3) (lo := 0) (by decide) rfl)

/-- Settles O7: OpCode is all of its 1-byte container. -/
theorem setOpcodeWritesByteZero : Obligations.SetOpcodeWritesByteZero :=
  setRule_of_writeField (f := .opcode) (op := 0x20) (fun _ _ => rfl) (fun _ => rfl) (by decide) fun s v =>
    congrArg (fun b => [b]) (s.headerByte_putField_whole v (k := 0) (lo := 0) (by decide) rfl)

/-- Settles O8: each of the four fields is a run of bits of byte 1; the corner cases are those of R117 and R116. -/
theorem setWritesTheFieldsOfByteOne : Obligations.SetWritesTheFieldsOfByteOne := by
  refine ⟨setRule_of_writeField (f := .se) (op := 0x21) (fun _ _ => rfl) (fun _ => rfl) (by decide) fun s v => ?_,
    setRule_of_writeField (f := .mig) (op := 0x22) (fun _ _ => rfl) (fun _ => rfl) (by decide) fun s v => ?_,
    setRule_of_writeField (f := .pad) (op := 0x23) (fun _ _ => rfl) (fun _ => rfl) (by decide) fun s v => ?_,
    setRule_of_writeField (f := .tver) (op := 0x24) (fun _ _ => rfl) (fun _ => rfl) (by decide) fun s v => ?_,
    tverZeroAfterBuild, padThreeAfterSetPadSeven⟩
  · exact s.containerBytes_putField_run v ⟨rfl, rfl, rfl⟩ (by decide)
  · exact s.containerBytes_putField_run v ⟨rfl, rfl, rfl⟩ (by decide)
  · exact s.containerBytes_putField_run v ⟨rfl, rfl, rfl⟩ (by decide)
  · have hrun := s.containerBytes_putField_run (f := .tver) (lo := 0) (m := 0xF0) v ⟨rfl, rfl, rfl⟩ (by decide)
    rwa [BitVec.shiftLeft_zero] at hrun

/-- Settles O9: the two bytes of PartitionKey's container, the high byte first. -/
theorem setPkeyWritesBytesTwoAndThreeBigEndian : Obligations.SetPkeyWritesBytesTwoAndThreeBigEndian :=
  setRule_of_writeField (f := .pkey) (op := 0x25) (fun _ _ => rfl) (fun _ => rfl) (by decide)
    State.containerBytes_putField_pkey

/-- Settles O10: FECN and BECN are bits of byte 4, QueuePairNumber the three bytes after it. -/
theorem setWritesTheFieldsOfTheSecondWord : Obligations.SetWritesTheFieldsOfTheSecondWord :=
  ⟨setRule_of_writeField (f := .fecn) (op := 0x26) (fun _ _ => rfl) (fun _ => rfl) (by decide) fun s v =>
      s.containerBytes_putField_bit v ⟨rfl, rfl, rfl⟩ (by decide),
    setRule_of_writeField (f := .becn) (op := 0x27) (fun _ _ => rfl) (fun _ => rfl) (by decide) fun s v =>
      s.containerBytes_putField_bit v ⟨rfl, rfl, rfl⟩ (by decide),
    setRule_of_writeField (f := .qpn) (op := 0x29) (fun _ _ => rfl) (fun _ => rfl) (by decide) fun s v =>
      s.containerBytes_putField_low24 v ⟨rfl, rfl, rfl⟩⟩

/-- Settles O11: AckRequest is a bit of byte 8, PacketSequenceNumber the three bytes after it. -/
theorem setWritesTheFieldsOfTheThirdWord : Obligations.SetWritesTheFieldsOfTheThirdWord :=
  ⟨setRule_of_writeField (f := .ack) (op := 0x2A) (fun _ _ => rfl) (fun _ => rfl) (by decide) fun s v =>
      s.containerBytes_putField_bit v ⟨rfl, rfl, rfl⟩ (by decide),
    setRule_of_writeField (f := .psn) (op := 0x2C) (fun _ _ => rfl) (fun _ => rfl) (by decide) fun s v =>
      s.containerBytes_putField_low24 v ⟨rfl, rfl, rfl⟩⟩

end Sys2Proof.Machine
end

section
/-!
PROOFS. The laws of every SET (42_set.md R124 to R126): the round trip, the isolation of the other fields and of the
reserved bits, and the silent truncation of the operand.
-/

namespace Sys2Proof.Machine

/-- Different places of the list of unreserved fields hold different fields. -/
theorem unreservedFields_ne {j k : Nat} {f g : Field} (hf : unreservedFields[j]? = some f)
    (hg : unreservedFields[k]? = some g) (hjk : j ≠ k) : f ≠ g := by
  obtain ⟨hj, rfl⟩ := List.getElem?_eq_some_iff.mp hf
  obtain ⟨hk, rfl⟩ := List.getElem?_eq_some_iff.mp hg
  exact fun he => hjk (unreservedFields_nodup.getElem_inj_iff.mp he)

/-- No field of the list of unreserved fields is a reserved one. -/
theorem ne_of_getElem?_unreservedFields {j : Nat} {f g : Field} (hf : unreservedFields[j]? = some f)
    (hg : g.reserved = true) : f ≠ g := by
  rintro rfl
  have hres := (List.mem_filter.mp (List.mem_of_getElem? hf)).2
  simp [hg] at hres

/-- In a bound state the SET of a row completes (42_set.md R112). -/
theorem State.Bound.exec_set {s : State} (hs : s.Bound) {p : Instr × (Word → Instr) × Nat} {f : Field}
    (hrow : RowOf p f) (v : Word) : exec (p.2.1 v) s = .next ((s.putField f v).respond {}) :=
  (hrow.set v s).trans (hs.writeField_eq f v)

/-- After the SET of a field the GET of another answers what it answered before. -/
theorem State.Bound.answers_other_after_set {s : State} (hs : s.Bound) {q : Instr × (Word → Instr) × Nat}
    {f g : Field} (hrow : RowOf q g) (hne : f ≠ g) (v : Word) :
    ∃ r, Answers q.1 s r ∧ Answers q.1 ((s.putField f v).respond {}) r :=
  ⟨_, hs.answers_of_readField hrow.get rfl,
    ((hs.putField f v).respond {}).answers_of_readField hrow.get (s.getField_putField_other v hne.symm)⟩

/-- Settles O12: the field written holds the truncated operand, and every other field keeps its value. -/
theorem setThenGetReturnsTheTruncatedValue : Obligations.SetThenGetReturnsTheTruncatedValue := by
  intro j p hp v s hs
  obtain ⟨f, hf, hrow⟩ := exists_rowOf_of_getElem? hp
  have hget : (s.putField f v).getField f = BitVec.ofNat 32 (v.toNat % 2 ^ p.2.2) := by
    rw [s.getField_putField_same, trunc_eq_mod, hrow.width]
  refine ⟨_, hs.exec_set hrow v, ((hs.putField f v).respond {}).answers_of_readField hrow.get hget,
    fun k q hq hjk => ?_⟩
  obtain ⟨g, hg, hrow'⟩ := exists_rowOf_of_getElem? hq
  exact hs.answers_other_after_set hrow' (unreservedFields_ne hf hg hjk) v

/-- Settles O13: the field written shares no bit with another data field, with Reserved6a or with Reserved7. -/
theorem setDisturbsNoOtherFieldAndNoReservedBit : Obligations.SetDisturbsNoOtherFieldAndNoReservedBit := by
  intro j k p q hp hq hjk v s hs
  obtain ⟨f, hf, hrow⟩ := exists_rowOf_of_getElem? hp
  obtain ⟨g, hg, hrow'⟩ := exists_rowOf_of_getElem? hq
  obtain ⟨r, hbefore, hafter⟩ := hs.answers_other_after_set hrow' (unreservedFields_ne hf hg hjk) v
  exact ⟨_, r, hs.exec_set hrow v, hbefore, hafter,
    s.headerByte_and_putField_other (g := .resv6a) v (by decide) (by decide) (ne_of_getElem?_unreservedFields hf rfl),
    s.headerByte_and_putField_other (g := .resv7) v (by decide) (by decide) (ne_of_getElem?_unreservedFields hf rfl)⟩

theorem trunc_trunc (w : Nat) (v : Word) : trunc w (trunc w v) = trunc w v := by
  apply BitVec.eq_of_getLsbD_eq
  intro i _
  simp [getLsbD_trunc]

/-- The SET of a field and of its operand's low bits are the same in every state: only these enter the container. -/
theorem writeField_trunc (f : Field) (v : Word) (s : State) : writeField f (trunc f.width v) s = writeField f v s := by
  simp only [writeField, State.putField, Field.insert, trunc_trunc]

/-- Settles O14: a SET sees its operand through the low bits alone, and no operand makes it fault. -/
theorem setTruncatesItsOperandSilently : Obligations.SetTruncatesItsOperandSilently := by
  intro p hp v
  obtain ⟨f, hrow⟩ := exists_rowOf_of_mem hp
  refine ⟨fun s => ?_, fun s hs => ⟨_, hs.exec_set hrow v, rfl⟩⟩
  rw [hrow.set, hrow.set, hrow.width, ← trunc_eq_mod, writeField_trunc]

end Sys2Proof.Machine
end

section
/-!
PROOFS. The rule of each CLR (43_clear_reserved.md R131, R132): its word, and the bytes of its container that it stores.
-/

namespace Sys2Proof.Machine

/-- The rule of a command that clears a field, from its word and the bytes its container then holds. -/
theorem clearRule_of_writeField {i : Instr} {f : Field} {w0 : Word} {bytes : State → List Byte}
    (hx : ∀ s, exec i s = writeField f 0 s) (he : encode i = [w0])
    (hb : ∀ s : State, s.Stored (s.putField f 0) (s.base.toNat + f.off) (bytes s)) : ClearRule i w0 f.off bytes :=
  ⟨he, fun s hs => (hx s).trans (State.onWindow_short _ hs),
    fun s hs => ⟨_, (hx s).trans (hs.writeField_eq f 0), rfl, hb s⟩⟩

/-- Settles O16: Reserved6a is the low six bits of the first byte of its container. -/
theorem clrResv6aClearsTheSixBitsOfByteFour : Obligations.ClrResv6aClearsTheSixBitsOfByteFour :=
  clearRule_of_writeField (f := .resv6a) (fun _ => rfl) (by decide) State.stored_putField_resv6a

/-- Settles O17: Reserved7 is the low seven bits of the first byte of its container. -/
theorem clrResv7ClearsTheSevenBitsOfByteEight : Obligations.ClrResv7ClearsTheSevenBitsOfByteEight :=
  clearRule_of_writeField (f := .resv7) (fun _ => rfl) (by decide) State.stored_putField_resv7

end Sys2Proof.Machine
end

section
/-!
PROOFS. The laws of clearing (43_clear_reserved.md R133), from how two field writes compose: of two to one field the
last decides the bytes, and two to different fields commute.
-/

namespace Sys2Proof.Machine

/-- The two states have the same `BASE` and hold the same bytes: what the bytes left by later field writes depend on. -/
structure State.Agrees (s t : State) : Prop where
  base : s.base = t.base
  bytes : s.SameBytes t

theorem State.Agrees.refl (s : State) : s.Agrees s := ⟨rfl, fun _ => rfl⟩

theorem State.Agrees.symm {s t : State} (h : s.Agrees t) : t.Agrees s := ⟨h.base.symm, fun a => (h.bytes a).symm⟩

theorem State.Agrees.trans {s t u : State} (h : s.Agrees t) (h' : t.Agrees u) : s.Agrees u :=
  ⟨h.base.trans h'.base, fun a => (h.bytes a).trans (h'.bytes a)⟩

/-- Writing the same value into the same field keeps states in agreement. -/
theorem State.Agrees.putField {s t : State} (h : s.Agrees t) (f : Field) (v : Word) :
    (s.putField f v).Agrees (t.putField f v) := ⟨h.base, h.bytes.putField h.base f v⟩

/-- Of two writes of one field the last decides. -/
theorem State.putField_putField_same (s : State) (f : Field) (v w : Word) :
    ((s.putField f v).putField f w).Agrees (s.putField f w) := by
  refine ⟨by simp only [State.putField_base], fun x => BitVec.eq_of_getLsbD_eq fun i hi => ?_⟩
  rw [State.getLsbD_read_putField _ _ _ _ hi, State.getLsbD_read_putField _ _ _ _ hi,
    State.getLsbD_read_putField _ _ _ _ hi, State.putField_base]
  split
  · rfl
  · rfl

/-- Writes of two different fields agree in either order, since no bit is held by both. -/
theorem State.putField_comm (s : State) {f g : Field} (h : f ≠ g) (v w : Word) :
    ((s.putField f v).putField g w).Agrees ((s.putField g w).putField f v) := by
  refine ⟨by simp only [State.putField_base], fun x => BitVec.eq_of_getLsbD_eq fun i hi => ?_⟩
  simp only [State.getLsbD_read_putField _ _ _ _ hi, State.putField_base]
  apply ite_ite_comm
  intro hgx hfx
  have hspan := f.span_le
  refine h (Field.eq_of_holdsBit (k := x - s.base.toNat) (by omega) hi ?_ ?_)
  · rw [Field.holdsBit_iff]
    omega
  · rw [Field.holdsBit_iff]
    omega

/-- A pair of writes to two different fields, done twice, agrees with the pair done once. -/
theorem State.putField_pair_twice (s : State) {f g : Field} (h : f ≠ g) (v w : Word) :
    ((((s.putField f v).putField g w).putField f v).putField g w).Agrees ((s.putField f v).putField g w) := by
  have hswap := (s.putField f v).putField_comm h.symm w v
  have honce := (s.putField_putField_same f v v).putField g w
  exact ((hswap.trans honce).putField g w).trans ((s.putField f v).putField_putField_same g w w)

/-- In a bound state a SET or CLR completes, and leaves the state bound and its field written, as the write alone would
on any state in agreement (42_set.md R112). -/
theorem State.Bound.exec_agrees {s u : State} (hs : s.Bound) (h : s.Agrees u) {i : Instr} {f : Field} {v : Word}
    (hx : ∀ t, exec i t = writeField f v t) : ∃ t, exec i s = .next t ∧ t.Bound ∧ t.Agrees (u.putField f v) :=
  have hput := h.putField f v
  ⟨_, (hx s).trans (hs.writeField_eq f v), (hs.putField f v).respond {}, hput.base, hput.bytes⟩

/-- Commands that write different fields commute (42_set.md R127, 43_clear_reserved.md R133). -/
theorem bytesCommute_of_writeField {i j : Instr} {f g : Field} {v w : Word} (hi : ∀ s, exec i s = writeField f v s)
    (hj : ∀ s, exec j s = writeField g w s) (h : f ≠ g) : BytesCommute i j := by
  intro s hs
  obtain ⟨t, ht, hbound, hagree⟩ := hs.exec_agrees (.refl s) hi
  obtain ⟨u, hu, -, hfg⟩ := hbound.exec_agrees hagree hj
  obtain ⟨t', ht', hbound', hagree'⟩ := hs.exec_agrees (.refl s) hj
  obtain ⟨u', hu', -, hgf⟩ := hbound'.exec_agrees hagree' hi
  exact ⟨t, u, t', u', ht, hu, ht', hu', ((hfg.trans (s.putField_comm h v w)).trans hgf.symm).bytes⟩

/-- Each clearing command writes 0 into a reserved field (43_clear_reserved.md R130). -/
theorem exists_reserved_of_mem_clearCommands {c : Instr} (h : c ∈ clearCommands) :
    ∃ g : Field, g.reserved = true ∧ ∀ s, exec c s = writeField g 0 s := by
  rcases List.mem_pair.mp h with rfl | rfl
  · exact ⟨.resv6a, rfl, fun _ => rfl⟩
  · exact ⟨.resv7, rfl, fun _ => rfl⟩

/-- A row of `dataFields` and a clearing command are about different fields. -/
theorem exists_rowOf_and_clearedField {p : Instr × (Word → Instr) × Nat} {c : Instr} (hp : p ∈ dataFields)
    (hc : c ∈ clearCommands) : ∃ f g, g ≠ f ∧ RowOf p f ∧ ∀ s, exec c s = writeField g 0 s := by
  obtain ⟨_, hj⟩ := List.mem_iff_getElem?.mp hp
  obtain ⟨f, hf, hrow⟩ := exists_rowOf_of_getElem? hj
  obtain ⟨g, hg, hx⟩ := exists_reserved_of_mem_clearCommands hc
  exact ⟨f, g, (ne_of_getElem?_unreservedFields hf hg).symm, hrow, hx⟩

/-- After a field is cleared, its bits of each byte of its container are 0. -/
theorem State.headerByte_putField_zero_and_byteMask (s : State) (f : Field) {k : Nat} (hk : k < f.size) :
    (s.putField f 0).headerByte (f.off + k) &&& f.byteMask k = 0 := by
  rw [s.headerByte_putField_zero f hk, BitVec.and_assoc, BitVec.and_comm (~~~ _), BitVec.and_not_self]
  exact BitVec.and_zero

/-- In a bound state CLR_RESV clears both reserved fields (30_encoding.md R73). -/
theorem State.Bound.execAll_clrResv_agrees {s u : State} (hs : s.Bound) (h : s.Agrees u) :
    ∃ t, execAll (expandPseudo .clrResv) s = .next t ∧ t.Bound ∧
      t.Agrees ((u.putField .resv6a 0).putField .resv7 0) := by
  obtain ⟨m, hm, hbound, hagree⟩ := hs.exec_agrees (i := .clrResv6a) h fun _ => rfl
  obtain ⟨t, ht, hbound', hagree'⟩ := hbound.exec_agrees (i := .clrResv7) hagree fun _ => rfl
  exact ⟨t, (execAll_cons hm _).trans (execAll_cons ht _), hbound', hagree'⟩

/-- Settles O18: the two reserved fields share no bit with each other or with a data field, and a field cleared twice
holds the same 0. -/
theorem clearingIsIdempotentAndDisturbsNoField : Obligations.ClearingIsIdempotentAndDisturbsNoField := by
  refine ⟨fun c hc s hs => ?once, fun s hs => ?pair, ?clears, fun p hp c hc a => ?sets, fun s hs => ?bits6a,
    fun s hs => ?bits7, fun p hp c hc s hs => ?gets⟩
  case once =>
    obtain ⟨g, _, hx⟩ := exists_reserved_of_mem_clearCommands hc
    obtain ⟨t, ht, hbound, hagree⟩ := hs.exec_agrees (.refl s) hx
    obtain ⟨u, hu, -, htwice⟩ := hbound.exec_agrees hagree hx
    exact ⟨t, u, ht, hu, ((htwice.trans (s.putField_putField_same g 0 0)).trans hagree.symm).bytes⟩
  case pair =>
    obtain ⟨t, ht, hbound, hagree⟩ := hs.execAll_clrResv_agrees (.refl s)
    obtain ⟨u, hu, -, htwice⟩ := hbound.execAll_clrResv_agrees hagree
    exact ⟨t, u, ht, hu, ((htwice.trans (s.putField_pair_twice (by decide) 0 0)).trans hagree.symm).bytes⟩
  case clears => exact bytesCommute_of_writeField (f := .resv6a) (g := .resv7) (fun _ => rfl) (fun _ => rfl) (by decide)
  case sets =>
    obtain ⟨f, g, hne, hrow, hx⟩ := exists_rowOf_and_clearedField hp hc
    exact bytesCommute_of_writeField hx (hrow.set a) hne
  case bits6a => exact ⟨_, hs.exec_clrResv6a, s.headerByte_putField_zero_and_byteMask .resv6a (k := 0) (by decide)⟩
  case bits7 => exact ⟨_, hs.exec_clrResv7, s.headerByte_putField_zero_and_byteMask .resv7 (k := 0) (by decide)⟩
  case gets =>
    obtain ⟨f, g, hne, hrow, hx⟩ := exists_rowOf_and_clearedField hp hc
    obtain ⟨r, hbefore, hafter⟩ := hs.answers_other_after_set hrow hne 0
    exact ⟨_, r, (hx s).trans (hs.writeField_eq g 0), hbefore, hafter⟩

end Sys2Proof.Machine
end

section
/-!
PROOFS. VALIDATE, IS_IB_PORT and the layer services (44_validate_frame.md R136, R138, R140, R144, R146): each answers one
response that `BASE`, `LEN` and the arena take no part in.
-/

namespace Sys2Proof.Machine

/-- R136: the three words of VALIDATE. -/
theorem encode_validate (base len : Word) : encode (.validate base len) = [0x03000000, base, len] := by
  rw [encode, Instr.opcode, Instr.operands, show headerWord 3 = 0x03000000 by decide]

/-- R138: the two words of IS_IB_PORT. -/
theorem encode_isIbPort (port : Word) : encode (.isIbPort port) = [0x04000000, port] := by
  rw [encode, Instr.opcode, Instr.operands, show headerWord 4 = 0x04000000 by decide]

/-- R136: the length test is unsigned. -/
theorem validFlag_iff (len : Word) : validFlag len = true ↔ 12 ≤ len.toNat := decide_eq_true_iff

/-- R138: the comparison with 4791 sees the operand as one unsigned number of 32 bits. -/
theorem ibPortFlag_iff (port : Word) : ibPortFlag port = true ↔ port.toNat = 4791 :=
  decide_eq_true_iff.trans BitVec.toNat_inj.symm

/-- In every state VALIDATE answers its flag, whatever `base` is. -/
theorem answers_validate (base : Word) {len : Word} (s : State) {b : Bool} (h : validFlag len = b) :
    Answers (.validate base len) s { f := b } := by
  rw [Answers, exec, execValidate, h, State.respond]

/-- In every state IS_IB_PORT answers its flag. -/
theorem answers_isIbPort {port : Word} (s : State) {b : Bool} (h : ibPortFlag port = b) :
    Answers (.isIbPort port) s { f := b } := by
  rw [Answers, exec, execIsIbPort, h, State.respond]

/-- Settles O26: the flag is the unsigned length test, on both sides of 12. -/
theorem validateTestsTheLengthOnly : Obligations.ValidateTestsTheLengthOnly :=
  ⟨encode_validate, fun base len s h => answers_validate base s ((validFlag_iff len).mpr h), fun base len s h =>
    answers_validate base s (Bool.eq_false_iff.mpr fun hf => absurd ((validFlag_iff len).mp hf) (Nat.not_le.mpr h))⟩

/-- Settles O27: the flag compares all 32 bits of the operand. -/
theorem isIbPortIsTrueOfPort4791Alone : Obligations.IsIbPortIsTrueOfPort4791Alone :=
  ⟨encode_isIbPort, fun port s h => answers_isIbPort s ((ibPortFlag_iff port).mpr h), fun port s h =>
    answers_isIbPort s (Bool.eq_false_iff.mpr fun hf => h ((ibPortFlag_iff port).mp hf))⟩

/-- R140: HDR_LEN answers the size of the header in every state. -/
theorem answers_hdrLen (s : State) : Answers .hdrLen s { d0 := 12 } := rfl

/-- R144: CALC_FIELDS answers `OK` in every state. -/
theorem answers_calcFields (s : State) : Answers .calcFields s { st := .ok } := rfl

/-- R146: OSI_LAYER answers the parameter of the run in every state. -/
theorem answers_osiLayer (s : State) : Answers .osiLayer s { d0 := s.cfg.osiTransport } := rfl

/-- Settles O28: the one word and the answer of each of the three services; NOP is CALC_FIELDS by R74. -/
theorem layerServicesAnswerConstants : Obligations.LayerServicesAnswerConstants :=
  ⟨by decide, answers_hdrLen, by decide, answers_calcFields, rfl, by decide, answers_osiLayer⟩

end Sys2Proof.Machine
end

section
/-!
PROOFS. PARSE_NEXT (44_validate_frame.md R142): the payload descriptor on each side of `LEN = 12`, and the segment it
names inside the arena where the binding invariant (10_state.md R27) holds.
-/

namespace Sys2Proof.Machine

/-- PARSE_NEXT answers SHORT_WINDOW while `LEN < 12`. -/
theorem answers_parseNext_short {s : State} (h : s.len.toNat < 12) : Answers .parseNext s { st := .shortWindow } := by
  rw [Answers, exec, execParseNext, if_neg fun hw => absurd (s.windowOk_iff.mp hw) (Nat.not_le.mpr h), State.raise,
    State.respond]

/-- PARSE_NEXT answers the payload descriptor where a whole header is bound. -/
theorem answers_parseNext_payload {s : State} (h : 12 ≤ s.len.toNat) : Answers .parseNext s s.payload := by
  rw [Answers, exec, execParseNext, if_pos (s.windowOk_iff.mpr h), State.respond]

/-- No byte is left after a header that fills the buffer. -/
theorem State.payload_of_len_eq (s : State) (h : s.len.toNat = 12) : s.payload = {} := by
  rw [State.payload, if_pos (BitVec.eq_of_toNat_eq h)]

/-- Beyond the header the payload is the rest of the buffer. -/
theorem State.payload_of_len_gt (s : State) (h : 12 < s.len.toNat) :
    s.payload = { f := true, d0 := s.len - 12, d1 := s.base + 12 } := by
  have hne : s.len ≠ BitVec.ofNat 32 hdrSize := fun he => h.ne (congrArg BitVec.toNat he).symm
  rw [State.payload, if_neg hne]
  rfl

/-- The payload's length does not borrow. -/
theorem State.toNat_len_sub_twelve (s : State) (h : 12 ≤ s.len.toNat) : (s.len - 12).toNat = s.len.toNat - 12 :=
  BitVec.toNat_sub_of_le h

/-- The payload's address does not wrap where the header and at least one byte after it lie in the arena, which has at
most 2^32 bytes. -/
theorem State.BindingInArena.toNat_base_add_twelve {s : State} (hb : s.BindingInArena) (h : 12 < s.len.toNat) :
    (s.base + 12).toNat = s.base.toNat + 12 := by
  have hsize := s.cfg.arenaSize.isLt
  rw [State.BindingInArena] at hb
  exact BitVec.toNat_add_of_lt (show s.base.toNat + 12 < 2 ^ 32 by omega)

/-- Settles O29: the descriptor below, at and above `LEN = 12`; the segment ends where the bound buffer ends. -/
theorem parseNextFramesThePayload : Obligations.ParseNextFramesThePayload := by
  refine ⟨by decide, fun _ h => answers_parseNext_short h, fun s h => ?exact, fun s h => ⟨?above, ?noBorrow⟩,
    fun s h hb => ⟨hb.toNat_base_add_twelve h, ?segment⟩⟩
  case exact => exact s.payload_of_len_eq h ▸ answers_parseNext_payload h.ge
  case above => exact s.payload_of_len_gt h ▸ answers_parseNext_payload h.le
  case noBorrow => exact s.toNat_len_sub_twelve h.le
  case segment =>
    calc (s.base + 12).toNat + (s.len - 12).toNat
      _ = (s.base.toNat + 12) + (s.len.toNat - 12) := by rw [hb.toNat_base_add_twelve h, s.toNat_len_sub_twelve h.le]
      _ = s.base.toNat + s.len.toNat := by omega
      _ ≤ s.cfg.arenaSize.val := hb

end Sys2Proof.Machine
end

section
/-!
PROOFS. The response of every command (60_exceptions.md R150): `OK`, or one of the two faults of a legal command with its
occasion and with nothing but the response changed.
-/

namespace Sys2Proof.Machine

/-- 60_exceptions.md R154: BIND or BUILD of a region that reaches beyond the arena. -/
def State.RegionMisfits (s : State) (i : Instr) : Prop :=
  (∃ base len, i = .bind base len ∧ s.cfg.arenaSize.val < base.toNat + len.toNat) ∨
  (∃ base o se mig pad pkey qpn ack psn, i = .build base o se mig pad pkey qpn ack psn ∧
    s.cfg.arenaSize.val < base.toNat + 12)

@[simp] theorem State.regionMisfits_bind_iff (s : State) (base len : Word) :
    s.RegionMisfits (.bind base len) ↔ s.cfg.arenaSize.val < base.toNat + len.toNat := by
  simp [State.RegionMisfits]

@[simp] theorem State.regionMisfits_build_iff (s : State) (base o se mig pad pkey qpn ack psn : Word) :
    s.RegionMisfits (.build base o se mig pad pkey qpn ack psn) ↔ s.cfg.arenaSize.val < base.toNat + 12 := by
  simp [State.RegionMisfits]

/-- The ways a command that takes `s` to `t` can respond: `OK`, or a fault on its occasion (R152, R154) that changes
nothing but the responses. -/
inductive Responds (i : Instr) (s t : State) : Response → Prop where
  | ok {r : Response} (status : r.st = .ok) (responses : t.responses = s.responses ++ [r]) : Responds i s t r
  | shortWindow (access : accessesWindow i = true ∨ i = .parseNext) (short : s.len.toNat < 12)
      (raises : t = s.raise .shortWindow) : Responds i s t { st := .shortWindow }
  | badDescriptor (misfits : s.RegionMisfits i) (raises : t = s.raise .badDescriptor) :
      Responds i s t { st := .badDescriptor }

/-- What an access of the window responds: its own `OK` response, or SHORT_WINDOW. -/
theorem responds_of_onWindow {i : Instr} {s t u : State} {r : Response} (ha : accessesWindow i = true)
    (hu : u.responses = s.responses) (hr : r.st = .ok) (h : s.onWindow (u.respond r) = .next t) :
    ∃ r, Responds i s t r := by
  rcases s.onWindow_cases (u.respond r) with ⟨hs, e⟩ | ⟨_, _, e⟩ | ⟨_, _, e⟩
  · cases e.symm.trans h
    exact ⟨_, .shortWindow (.inl ha) hs rfl⟩
  · cases e.symm.trans h
    exact ⟨r, .ok hr (by rw [State.respond_responses, hu])⟩
  · cases e.symm.trans h

/-- The payload descriptor is an `OK` response (44_validate_frame.md R142). -/
theorem State.payload_st (s : State) : s.payload.st = .ok := by
  unfold State.payload
  split <;> rfl

/-- R150: a command that answers a next state has given one response, in one of the three ways. -/
theorem exec_responds {i : Instr} {s t : State} (h : exec i s = .next t) : ∃ r, Responds i s t r := by
  rcases exec_shape i with ⟨f, ha, hx⟩ | ⟨f, v, ha, hx⟩ | ⟨base, len, rfl⟩ |
    ⟨base, o, se, mig, pad, pkey, qpn, ack, psn, rfl⟩ | rfl | ⟨_, _, r, hr, hx⟩
  · exact responds_of_onWindow ha rfl rfl ((hx s).symm.trans h)
  · exact responds_of_onWindow (u := s.putField f v) ha rfl rfl ((hx s).symm.trans h)
  · rcases Nat.lt_or_ge s.cfg.arenaSize.val (base.toNat + len.toNat) with hm | hf
    · cases (exec_bind_of_not_fits hm).symm.trans h
      exact ⟨_, .badDescriptor ((s.regionMisfits_bind_iff ..).mpr hm) rfl⟩
    · cases (exec_bind_of_fits hf).symm.trans h
      exact ⟨{}, .ok rfl rfl⟩
  · rcases Nat.lt_or_ge s.cfg.arenaSize.val (base.toNat + 12) with hm | hf
    · cases (exec_build_of_not_fits hm).symm.trans h
      exact ⟨_, .badDescriptor ((s.regionMisfits_build_iff ..).mpr hm) rfl⟩
    · rw [← Host.Outcome.next.inj ((exec_build_of_fits hf).symm.trans h)]
      exact ⟨{}, .ok rfl (by simp)⟩
  · rcases Nat.lt_or_ge s.len.toNat 12 with hs | hl
    · cases (answers_parseNext_short hs).symm.trans h
      exact ⟨_, .shortWindow (.inr rfl) hs rfl⟩
    · cases (answers_parseNext_payload hl).symm.trans h
      exact ⟨_, .ok s.payload_st rfl⟩
  · cases (hx s).symm.trans h
    exact ⟨_, .ok (hr _) rfl⟩

namespace Responds

variable {i : Instr} {s t : State} {r : Response}

/-- The response is given once, after those before it. -/
theorem responses_eq (h : Responds i s t r) : t.responses = s.responses ++ [r] := by
  cases h with
  | ok _ hresp => exact hresp
  | shortWindow _ _ ht => rw [ht, State.raise_responses]
  | badDescriptor _ ht => rw [ht, State.raise_responses]

/-- A response that is not `OK` has no data and comes with no change of state. -/
theorem fault (h : Responds i s t r) (hst : r.st ≠ .ok) :
    r.f = false ∧ r.d0 = 0 ∧ r.d1 = 0 ∧ t = { s with responses := s.responses ++ [r] } := by
  cases h with
  | ok hok _ => exact absurd hok hst
  | shortWindow _ _ ht => exact ⟨rfl, rfl, rfl, ht⟩
  | badDescriptor _ ht => exact ⟨rfl, rfl, rfl, ht⟩

/-- SHORT_WINDOW comes from an access of a short window or from PARSE_NEXT on one only (R152). -/
theorem access_and_short (h : Responds i s t r) (hst : r.st = .shortWindow) :
    (accessesWindow i = true ∨ i = .parseNext) ∧ s.len.toNat < 12 := by
  cases h with
  | ok hok _ => cases hok.symm.trans hst
  | shortWindow ha hs _ => exact ⟨ha, hs⟩
  | badDescriptor _ _ => cases hst

/-- No legal command responds ILLEGAL_CMD (R153). -/
theorem ne_illegalCmd (h : Responds i s t r) : r.st ≠ .illegalCmd := by
  intro hst
  cases h with
  | ok hok _ => cases hok.symm.trans hst
  | shortWindow _ _ _ => cases hst
  | badDescriptor _ _ => cases hst

/-- BAD_DESCRIPTOR comes from a region that does not fit only (R154). -/
theorem regionMisfits (h : Responds i s t r) (hst : r.st = .badDescriptor) : s.RegionMisfits i := by
  cases h with
  | ok hok _ => cases hok.symm.trans hst
  | shortWindow _ _ _ => cases hst
  | badDescriptor hm _ => exact hm

end Responds

/-- A response with which a command answers, changing nothing else, is one it responds. -/
theorem Answers.responds {i : Instr} {s : State} {r : Response} (h : Answers i s r) :
    Responds i s (s.respond r) r := by
  obtain ⟨r', hr'⟩ := exec_responds h
  have hlast : s.responses ++ [r] = s.responses ++ [r'] := hr'.responses_eq
  obtain rfl : r = r' := List.singleton_inj.mp (List.append_cancel_left hlast)
  exact hr'

/-- 60_exceptions.md R150: the code of `OK`, and of no fault, is 0. -/
theorem Status.code_eq_zero_iff (st : Status) : st.code = 0 ↔ st = .ok := by
  cases st <;> decide

end Sys2Proof.Machine
end

section
/-!
PROOFS. SHORT_WINDOW and BAD_DESCRIPTOR, each when and only when its occasion is given (60_exceptions.md R152, R154).
-/

namespace Sys2Proof.Machine

/-- Settles O31: `Responds` lets SHORT_WINDOW come from no other command and on no other occasion. -/
theorem shortWindowExactlyWhenFewerThanTwelveBytesAreBound :
    Obligations.ShortWindowExactlyWhenFewerThanTwelveBytesAreBound := by
  refine ⟨fun i s hi hs => ?raised, fun i s r hl h hst => ?long, fun i s r ha hp h hst => ?noAccess⟩
  case raised =>
    rcases hi with ha | rfl
    · exact exec_short ha hs
    · exact answers_parseNext_short hs
  case long => exact absurd (h.responds.access_and_short hst).2 (Nat.not_lt.mpr hl)
  case noAccess =>
    rcases (h.responds.access_and_short hst).1 with ha' | rfl
    · exact Bool.false_ne_true (ha.symm.trans ha')
    · exact hp rfl

/-- R154: BAD_DESCRIPTOR, with nothing else changed, answers the regions that do not fit and nothing else. -/
theorem answers_badDescriptor_iff (i : Instr) (s : State) :
    Answers i s { st := .badDescriptor } ↔ s.RegionMisfits i := by
  refine ⟨fun h => h.responds.regionMisfits rfl, fun h => ?_⟩
  rcases h with ⟨base, len, rfl, hm⟩ | ⟨base, o, se, mig, pad, pkey, qpn, ack, psn, rfl, hm⟩
  · exact exec_bind_of_not_fits hm
  · exact exec_build_of_not_fits hm

/-- Settles O32: the regions that do not fit, spelled out for BIND and for BUILD. -/
theorem badDescriptorExactlyWhenTheRegionDoesNotFit : Obligations.BadDescriptorExactlyWhenTheRegionDoesNotFit :=
  ⟨fun base len s => (answers_badDescriptor_iff _ s).trans (s.regionMisfits_bind_iff base len),
    fun base o se mig pad pkey qpn ack psn s =>
      (answers_badDescriptor_iff _ s).trans (s.regionMisfits_build_iff base o se mig pad pkey qpn ack psn)⟩

end Sys2Proof.Machine
end

section
/-!
PROOFS. The illegal header word (60_exceptions.md R153), with legality read from R64's list and not from the decoder; and
what every response has in common (R150).
-/

namespace Sys2Proof

/-- R68: the check of a header word against R64's list asks for reserved bits 0 and one of the 32 opcodes. -/
theorem WellFormed.header_iff (w0 : Word) :
    WellFormed.header w0 = true ↔ rsvField w0 = 0 ∧ opField w0 ∈ legalOpcodes := by
  simp [WellFormed.header, WellFormed.reservedZero, WellFormed.opcodeLegal, legalOpcodes, rsvField, opField,
    List.lookup_isSome_iff]

/-- The decoder refuses a header word that R64's list does not have, and takes no word after it. -/
theorem decode_of_not_header {w0 : Word} (h : WellFormed.header w0 = false) (ws : List Word) :
    decode (w0 :: ws) = .illegal ws :=
  (decode_eq_illegal_iff w0 ws).mpr fun hl => Bool.false_ne_true (h.symm.trans ((WellFormed.header_iff w0).mpr hl))

end Sys2Proof

namespace Sys2Proof.Machine

/-- R153: a step on a header word that R64's list does not have takes that word and answers ILLEGAL_CMD. -/
theorem step_of_not_header {w0 : Word} {ws : List Word} {s : State} (h : WellFormed.header w0 = false)
    (hp : s.port = w0 :: ws) :
    step s = .next { s with port := ws, responses := s.responses ++ [{ st := .illegalCmd }] } :=
  step_of_illegal (by rw [hp, decode_of_not_header h])

/-- Settles O33: the step on an illegal header word, and `Responds` without ILLEGAL_CMD. -/
theorem illegalHeaderRaisesIllegalCmdAndConsumesOneWord :
    Obligations.IllegalHeaderRaisesIllegalCmdAndConsumesOneWord :=
  ⟨fun _ _ _ h hp => step_of_not_header h hp, fun _ _ _ h => h.responds.ne_illegalCmd⟩

/-- Settles O30: the three ways to respond of `Responds`, and the step on an illegal header word. -/
theorem everyCommandRespondsOnceAndAFaultChangesNothing :
    Obligations.EveryCommandRespondsOnceAndAFaultChangesNothing := by
  refine ⟨by decide, fun i s t h => ?command, fun _ _ _ h hp => step_of_not_header h hp⟩
  case command =>
    obtain ⟨r, hr⟩ := exec_responds h
    exact ⟨r, hr.responses_eq, fun hc => hr.fault fun hst => hc ((Status.code_eq_zero_iff _).mpr hst),
      hr.access_and_short, hr.ne_illegalCmd, hr.regionMisfits⟩

end Sys2Proof.Machine
end

section
/-!
PROOFS. The decoder and the encoder of 30_encoding.md R61 to R70 against each other: each decodes what the other encodes,
and a header word already decoded stays decoded whatever words follow.
-/

namespace Sys2Proof

/-- R62, R64: the arm of a command's opcode takes the command's operand words and leaves what follows them. -/
theorem decodeOp_opcode_operands (i : Instr) (ws : List Word) :
    decodeOp i.opcode (i.operands ++ ws) = .command i ws := by
  cases i <;> rfl

theorem encode_append (i : Instr) (ws : List Word) : encode i ++ ws = headerWord i.opcode :: (i.operands ++ ws) := rfl

/-- Settles O40: the header word decodes by the opcode, whose arm takes the operands. -/
theorem decodeOfEncodeIsTheCommand : Obligations.DecodeOfEncodeIsTheCommand := fun i ws => by
  rw [encode_append, decode_headerWord i.opcode_lt, decodeOp_opcode_operands]

theorem decode_encode (i : Instr) : decode (encode i) = .command i [] := by
  simpa using decodeOfEncodeIsTheCommand i []

/-- Where `d`, decoded behind opcode `op` from `ws`, is a command, the command has that opcode, and `ws` are its operands and
the rest. -/
def Decoded.ReadsOperands (d : Decoded) (op : Nat) (ws : List Word) : Prop :=
  ∀ i rest, d = .command i rest → op = i.opcode ∧ ws = i.operands ++ rest

/-- R62, format F0. -/
theorem readsOperands_command {op : Nat} {i : Instr} (h : op = i.opcode ∧ i.operands = []) (ws : List Word) :
    (Decoded.command i ws).ReadsOperands op ws := by
  rintro _ _ ⟨⟩
  exact ⟨h.1, by rw [h.2, List.nil_append]⟩

/-- R62, format F1. -/
theorem readsOperands_formatF1 {op : Nat} {mk : Word → Instr} (h : ∀ a, op = (mk a).opcode ∧ (mk a).operands = [a])
    {ws : List Word} : (formatF1 mk ws).ReadsOperands op ws := by
  unfold formatF1
  split
  · rintro _ _ ⟨⟩
    exact ⟨(h _).1, by rw [(h _).2]; rfl⟩
  · exact nofun

/-- R62, format F2. -/
theorem readsOperands_formatF2 {op : Nat} {mk : Word → Word → Instr}
    (h : ∀ a b, op = (mk a b).opcode ∧ (mk a b).operands = [a, b]) {ws : List Word} :
    (formatF2 mk ws).ReadsOperands op ws := by
  unfold formatF2
  split
  · rintro _ _ ⟨⟩
    exact ⟨(h _ _).1, by rw [(h _ _).2]; rfl⟩
  · exact nofun

/-- R62, format F9, which BUILD alone has. -/
theorem readsOperands_formatF9_build (ws : List Word) : (formatF9 .build ws).ReadsOperands 0x02 ws := by
  unfold formatF9
  split
  · rintro _ _ ⟨⟩
    exact ⟨rfl, rfl⟩
  · exact nofun

/-- R64: each arm of the decoder takes the operands of its own command. -/
theorem decodeOp_readsOperands (op : Nat) (ws : List Word) : (decodeOp op ws).ReadsOperands op ws := by
  unfold decodeOp
  split
  case h_2 | h_4 =>
    apply readsOperands_formatF2
    exact fun _ _ => ⟨rfl, rfl⟩
  case h_3 => exact readsOperands_formatF9_build ws
  case h_5 | h_20 | h_21 | h_22 | h_23 | h_24 | h_25 | h_26 | h_27 | h_28 | h_29 | h_30 =>
    apply readsOperands_formatF1
    exact fun _ => ⟨rfl, rfl⟩
  case h_33 => exact nofun
  all_goals exact readsOperands_command ⟨rfl, rfl⟩ ws

/-- Settles O41: the header word is that of its opcode, and the arm of the opcode took the operands. -/
theorem decodedWordsAreTheEncodingOfTheCommand : Obligations.DecodedWordsAreTheEncodingOfTheCommand := by
  intro ws rest i h
  cases ws with
  | nil => cases h
  | cons w0 ws =>
    by_cases hr : rsvField w0 = 0
    · rw [decode, if_pos hr] at h
      obtain ⟨hop, hws⟩ := decodeOp_readsOperands _ _ _ _ h
      rw [encode_append, ← hop, headerWord_opField hr, hws]
    · rw [decode, if_neg hr] at h
      cases h

/-- A decoded command stays decoded when words follow. -/
theorem decode_append_of_command {ws rest : List Word} {i : Instr} (h : decode ws = .command i rest) (us : List Word) :
    decode (ws ++ us) = .command i (rest ++ us) := by
  rw [decodedWordsAreTheEncodingOfTheCommand ws rest i h, List.append_assoc, decodeOfEncodeIsTheCommand]

theorem decodeOp_illegal_rest {op : Nat} {ws rest : List Word} (h : decodeOp op ws = .illegal rest) : ws = rest := by
  unfold decodeOp at h
  split at h
  case h_33 => exact Decoded.illegal.inj h
  all_goals simp at h

/-- R63: an illegal header word is a command of one word. -/
theorem eq_cons_of_decode_illegal {ws rest : List Word} (h : decode ws = .illegal rest) : ∃ w0, ws = w0 :: rest := by
  cases ws with
  | nil => cases h
  | cons w0 ws =>
    refine ⟨w0, congrArg (w0 :: ·) ?_⟩
    by_cases hr : rsvField w0 = 0
    · rw [decode, if_pos hr] at h
      exact decodeOp_illegal_rest h
    · rw [decode, if_neg hr] at h
      exact Decoded.illegal.inj h

/-- An illegal header word stays illegal when words follow. -/
theorem decode_append_of_illegal {ws rest : List Word} (h : decode ws = .illegal rest) (us : List Word) :
    decode (ws ++ us) = .illegal (rest ++ us) := by
  obtain ⟨w0, rfl⟩ := eq_cons_of_decode_illegal h
  exact (decode_eq_illegal_iff w0 (rest ++ us)).mpr ((decode_eq_illegal_iff w0 rest).mp h)

/-- R60: with some of a command's words missing nothing has started, since a whole command among them would be the
command itself with no word left over. -/
theorem decode_take_encode {i : Instr} {k : Nat} (hk : k < (encode i).length) :
    decode ((encode i).take k) = .incomplete := by
  cases h : decode ((encode i).take k) with
  | incomplete => rfl
  | illegal rest =>
    have hwhole := decode_append_of_illegal h ((encode i).drop k)
    rw [List.take_append_drop, decode_encode] at hwhole
    cases hwhole
  | command j rest =>
    have hwhole := decode_append_of_command h ((encode i).drop k)
    rw [List.take_append_drop, decode_encode, Decoded.command.injEq, eq_comm (a := []), List.append_eq_nil_iff,
      List.drop_eq_nil_iff] at hwhole
    omega

/-- Settles O39, by running the decoder on each word. -/
theorem sampleWordsDecodeAsTabled : Obligations.SampleWordsDecodeAsTabled := by
  unfold Obligations.SampleWordsDecodeAsTabled
  decide

end Sys2Proof
end

section
/-!
PROOFS. What a command writes (10_state.md sections 3 and 6): the twelve bytes of the window it leaves bound at most, the
binding registers by BIND and BUILD alone, and no parameter, no word on the port and no action of the host.
-/

namespace Sys2Proof.Machine

/-- From `s` to `t` memory changes in the twelve window bytes of `t` at most: every other byte reads as before, no other
address is newly listed, and memory stays canonical. -/
structure State.WritesWindow (s t : State) : Prop where
  frame : ∀ a, a < t.base.toNat ∨ t.base.toNat + 12 ≤ a → t.mem.read a = s.mem.read a
  listed : ∀ c ∈ t.mem, (t.base.toNat ≤ c.1 ∧ c.1 < t.base.toNat + 12) ∨ c ∈ s.mem
  memWf : s.mem.wf = true → t.mem.wf = true

theorem State.writesWindow_zeroWindow (s : State) : s.WritesWindow s.zeroWindow where
  frame a ha := by
    rw [State.zeroWindow_base] at ha
    rw [State.zeroWindow_mem, hdrSize_eq, Memory.read_zero, if_neg (by omega)]
  listed c hc := by
    rw [State.zeroWindow_mem, hdrSize_eq] at hc
    rw [State.zeroWindow_base]
    exact Memory.mem_zero hc
  memWf hs := by
    rw [State.zeroWindow_mem, hdrSize_eq]
    exact Memory.zero_wf _ _ hs

/-- Writing a field of the window too changes no more than the window. -/
theorem State.WritesWindow.putField {s t : State} (h : s.WritesWindow t) (f : Field) (v : Word) :
    s.WritesWindow (t.putField f v) where
  frame a ha := by
    have hspan := f.span_le
    rw [State.putField_base] at ha
    rw [t.read_putField_other f v (by omega), h.frame a ha]
  listed c hc := (State.mem_putField hc).elim .inl (h.listed c)
  memWf hs := State.putField_wf f v (h.memWf hs)

theorem State.WritesWindow.refl (s : State) : s.WritesWindow s where
  frame _ _ := rfl
  listed _ hc := .inr hc
  memWf hs := hs

/-- A response writes nothing. -/
theorem State.WritesWindow.respond {s t : State} (h : s.WritesWindow t) (r : Response) :
    s.WritesWindow (t.respond r) := ⟨h.frame, h.listed, h.memWf⟩

/-- The header BUILD makes is written in the window (40_construct.md R83). -/
theorem State.writesWindow_buildHeader (s : State) (o se mig pad pkey qpn ack psn : Word) :
    s.WritesWindow (s.buildHeader o se mig pad pkey qpn ack psn) := by
  unfold State.buildHeader
  iterate 8 refine State.WritesWindow.putField ?_ _ _
  exact s.writesWindow_zeroWindow

/-- Binding writes nothing, so what is written after it is written in all. -/
theorem State.WritesWindow.of_setBinding {s t : State} {base len : Word}
    (h : (s.setBinding base len).WritesWindow t) : s.WritesWindow t := ⟨h.frame, h.listed, h.memWf⟩

/-- A command either leaves memory alone or writes in the window it leaves bound, which lies in the arena. -/
theorem exec_mem {i : Instr} {s t : State} (h : exec i s = .next t) :
    t.mem = s.mem ∨ (t.base.toNat + 12 ≤ s.cfg.arenaSize.val ∧ s.WritesWindow t) := by
  rcases exec_next h with ⟨r, rfl, _⟩ | ⟨_, _, hfit, f, v, rfl⟩ | ⟨base, len, _, _, rfl⟩ |
    ⟨base, o, se, mig, pad, pkey, qpn, ack, psn, _, hfit, rfl⟩
  · exact .inl rfl
  · exact .inr ⟨hfit, ((State.WritesWindow.refl s).putField f v).respond {}⟩
  · exact .inl rfl
  · refine .inr ⟨?_, (State.writesWindow_buildHeader _ _ _ _ _ _ _ _ _).of_setBinding.respond {}⟩
    rw [State.respond_base, State.buildHeader_base, State.setBinding_base]
    exact hfit

/-- A command that is neither BUILD nor an access of the window leaves memory alone. -/
theorem exec_mem_of_not_accessesWindow {i : Instr} {s t : State} (h : exec i s = .next t)
    (ha : accessesWindow i = false)
    (hb : ∀ base o se mig pad pkey qpn ack psn, i ≠ .build base o se mig pad pkey qpn ack psn) : t.mem = s.mem := by
  rcases exec_next h with ⟨r, rfl, _⟩ | ⟨ha', _⟩ | ⟨base, len, _, _, rfl⟩ | ⟨_, _, _, _, _, _, _, _, _, hi, _⟩
  · rfl
  · exact absurd (ha.symm.trans ha') Bool.false_ne_true
  · rfl
  · exact (hb _ _ _ _ _ _ _ _ _ hi).elim

/-- Settles O36: what a command does to memory, as `State.WritesWindow` frames it. -/
theorem onlyTheTwelveWindowBytesChange : Obligations.OnlyTheTwelveWindowBytesChange := by
  refine fun i s t h => ⟨fun a ha => ?_, exec_mem_of_not_accessesWindow h⟩
  rcases exec_mem h with hmem | ⟨_, hwrites⟩
  · rw [hmem]
  · exact hwrites.frame a ha

/-- Settles O37: of the four things a command can have done, two bind. -/
theorem onlyBindAndBuildWriteTheBindingRegisters : Obligations.OnlyBindAndBuildWriteTheBindingRegisters := by
  intro i s t h
  rcases exec_next h with ⟨r, rfl, _⟩ | ⟨_, _, _, f, v, rfl⟩ | ⟨base, len, hi, _, rfl⟩ |
    ⟨base, o, se, mig, pad, pkey, qpn, ack, psn, hi, _, rfl⟩
  · exact ⟨fun _ _ => ⟨rfl, rfl⟩, rfl, rfl, rfl⟩
  · exact ⟨fun _ _ => ⟨rfl, rfl⟩, rfl, rfl, rfl⟩
  · exact ⟨fun hbind => (hbind _ _ hi).elim, rfl, rfl, rfl⟩
  · refine ⟨fun _ hbuild => (hbuild _ _ _ _ _ _ _ _ _ hi).elim, ?_, ?_, ?_⟩
    · rw [State.respond_cfg, State.buildHeader_cfg, State.setBinding_cfg]
    · rw [State.respond_port, State.buildHeader_port, State.setBinding_port]
    · rw [State.respond_host, State.buildHeader_host, State.setBinding_host]

end Sys2Proof.Machine
end

section
/-!
PROOFS. The binding invariant (10_state.md R27): every command keeps it, and completes where it holds.
-/

namespace Sys2Proof.Machine

/-- The window test passes or answers; it does not stop the machine where the binding lies in the arena. -/
theorem State.BindingInArena.onWindow_completes {s : State} (h : s.BindingInArena) (t : State) :
    ∃ u, s.onWindow t = .next u := by
  rcases Nat.lt_or_ge s.len.toNat 12 with hs | hl
  · exact ⟨_, State.onWindow_short t hs⟩
  · exact ⟨_, State.onWindow_bound t hl h⟩

theorem State.BindingInArena.exec_completes {s : State} (h : s.BindingInArena) (i : Instr) :
    ∃ t, exec i s = .next t := by
  rcases exec_shape i with ⟨f, _, hx⟩ | ⟨f, v, _, hx⟩ | ⟨_, _, rfl⟩ | ⟨_, _, _, _, _, _, _, _, _, rfl⟩ | rfl |
    ⟨_, _, _, _, hx⟩
  · rw [hx]
    exact h.onWindow_completes _
  · rw [hx]
    exact h.onWindow_completes _
  · exact ⟨_, rfl⟩
  · exact ⟨_, rfl⟩
  · exact ⟨_, rfl⟩
  · exact ⟨_, hx s⟩

/-- BIND and BUILD write the binding registers only where the region fits; no other command writes them. -/
theorem State.BindingInArena.exec {i : Instr} {s t : State} (h : s.BindingInArena) (hx : exec i s = .next t) :
    t.BindingInArena := by
  rcases exec_next hx with ⟨r, rfl, _⟩ | ⟨_, _, _, f, v, rfl⟩ | ⟨base, len, _, hfit, rfl⟩ |
    ⟨base, o, se, mig, pad, pkey, qpn, ack, psn, _, hfit, rfl⟩
  · exact h
  · exact h
  · exact hfit
  · rw [State.BindingInArena, State.respond_base, State.respond_len, State.respond_cfg, State.buildHeader_base,
      State.buildHeader_len, State.buildHeader_cfg]
    exact hfit

/-- Settles O34: every command completes, with the response of `Responds`, and keeps the binding in the arena. -/
theorem everyCommandCompletesWhereTheBindingIsInTheArena :
    Obligations.EveryCommandCompletesWhereTheBindingIsInTheArena := by
  intro i s h
  obtain ⟨t, ht⟩ := h.exec_completes i
  obtain ⟨r, hr⟩ := exec_responds ht
  exact ⟨t, r, ht, hr.responses_eq, h.exec ht⟩

end Sys2Proof.Machine
end

section
/-!
PROOFS. The step by what stands on the port (30_encoding.md R60; 20_memory.md R47), and the host's turn by its next action
(20_memory.md R50; 70_reset_and_hazards.md R170, R177).
-/

namespace Sys2Proof.Machine

/-- Settles O45: the step looks at the port first. -/
theorem stepRunsTheDecodedCommand : Obligations.StepRunsTheDecodedCommand := by
  intro s i rest h
  rw [step, State.fetch, h]
  rfl

/-- With no whole command on the port the host takes its turn. -/
theorem step_of_incomplete {s : State} (h : decode s.port = .incomplete) : step s = hostTurn s := by
  rw [step, State.fetch, h]

theorem hostTurn_of_nil {s : State} (hh : s.host = []) : hostTurn s = .next s := by
  rw [hostTurn, hh]

theorem hostTurn_of_present {s : State} {w : Word} {h : List HostAction} (hh : s.host = .present w :: h) :
    hostTurn s = .next ((s.setHost h).setPort (s.port ++ [w])) := by
  rw [hostTurn, hh]

theorem hostTurn_of_write_inside {s : State} {a : Word} {b : Byte} {h : List HostAction} (hh : s.host = .write a b :: h)
    (ha : a.toNat < s.cfg.arenaSize.val) : hostTurn s = .next ((s.setHost h).setMem (s.mem.write a.toNat b)) := by
  rw [hostTurn, hh]
  exact if_pos ((s.fits_iff ..).mpr ha)

theorem hostTurn_of_write_outside {s : State} {a : Word} {b : Byte} {h : List HostAction} (hh : s.host = .write a b :: h)
    (ha : s.cfg.arenaSize.val ≤ a.toNat) : hostTurn s = .fault .hostWriteOutsideArena := by
  rw [hostTurn, hh]
  exact if_neg fun hf => absurd ((s.fits_iff ..).mp hf) (Nat.not_le.mpr (Nat.lt_succ_of_le ha))

theorem hostTurn_of_reset {s : State} {h : List HostAction} (hh : s.host = .reset :: h) :
    hostTurn s = .next (s.setHost h).applyReset := by
  rw [hostTurn, hh]

/-- Settles O51: the host's turn with no action left. -/
theorem theIdleBlockHoldsItsState : Obligations.TheIdleBlockHoldsItsState :=
  fun _ hp hh => (step_of_incomplete hp).trans (hostTurn_of_nil hh)

/-- One byte written is one byte stored (20_memory.md R46). -/
theorem State.stored_write (s : State) (h : List HostAction) (a : Nat) (b : Byte) :
    s.Stored ((s.setHost h).setMem (s.mem.write a b)) a [b] := by
  refine ⟨fun k c hc => ?_, fun x hx => Memory.read_write_other _ _ ?_⟩
  · obtain ⟨hk, rfl⟩ := List.getElem?_eq_some_iff.mp hc
    obtain rfl : k = 0 := Nat.lt_one_iff.mp hk
    exact Memory.read_write_same _ _ _
  · rw [List.length_singleton] at hx
    omega

/-- Settles O48: the host's write on both sides of the arena's end. -/
theorem hostWriteStoresItsByteBetweenCommands : Obligations.HostWriteStoresItsByteBetweenCommands :=
  ⟨fun s a b h hp hh ha =>
      ⟨_, (step_of_incomplete hp).trans (hostTurn_of_write_inside hh ha), rfl, s.stored_write h a.toNat b⟩,
    fun _ _ _ _ hp hh ha => (step_of_incomplete hp).trans (hostTurn_of_write_outside hh ha)⟩

/-- With fewer than twelve bytes bound every window access and PARSE_NEXT answer SHORT_WINDOW (60_exceptions.md R152). -/
theorem answers_shortWindow {i : Instr} (hi : accessesWindow i = true ∨ i = .parseNext) {s : State}
    (hs : s.len.toNat < 12) : Answers i s { st := .shortWindow } :=
  shortWindowExactlyWhenFewerThanTwelveBytesAreBound.1 i s hi hs

/-- Settles O49: the host's reset binds zero bytes. -/
theorem resetUnbindsAndLeavesMemory : Obligations.ResetUnbindsAndLeavesMemory :=
  fun _ _ hp hh => ⟨_, (step_of_incomplete hp).trans (hostTurn_of_reset hh), rfl,
    fun _ hi => answers_shortWindow hi (by simp)⟩

/-- Settles O50: no byte is listed and zero bytes are bound. -/
theorem theResetStateIsUnbound : Obligations.TheResetStateIsUnbound :=
  ⟨rfl, rfl, fun _ => rfl, fun _ hi => answers_shortWindow hi (by decide)⟩

/-- Settles O35: the arena test of the window access, which comes after the length test. -/
theorem windowOutsideTheArenaStops : Obligations.WindowOutsideTheArenaStops := by
  intro i s ha hl hout
  have hstop (t : State) : s.onWindow t = .fault .windowOutsideArena := by
    rcases s.onWindow_cases t with ⟨hs, _⟩ | ⟨_, hfit, _⟩ | ⟨_, _, e⟩
    · omega
    · omega
    · exact e
  rcases exec_of_accessesWindow ha with ⟨f, hx⟩ | ⟨f, v, hx⟩
  · exact (hx s).trans (hstop _)
  · exact (hx s).trans (hstop _)

end Sys2Proof.Machine
end

section
/-!
PROOFS. The invariant (10_state.md R27, R32): what commands, the host and whole runs do from a state that meets it.
-/

namespace Sys2Proof.Machine

/-- Settles O52: no byte is listed and zero bytes are bound. -/
theorem invariantHoldsAtReset : Obligations.InvariantHoldsAtReset where
  memWf := State.reset_mem_wf
  memInArena := nofun
  binding := Nat.zero_le _

/-- A change of memory inside a window of the arena keeps every listed byte in the arena. -/
theorem State.WritesWindow.memInArena {s t : State} (h : s.WritesWindow t) (hs : s.MemInArena) (hc : t.cfg = s.cfg)
    (hfit : t.base.toNat + 12 ≤ s.cfg.arenaSize.val) : t.MemInArena := by
  intro c hmem
  rw [hc]
  rcases h.listed c hmem with ⟨_, hlt⟩ | hold
  · omega
  · exact hs c hold

/-- Every command keeps the invariant. -/
theorem State.Inv.exec {i : Instr} {s t : State} (h : s.Inv) (hx : exec i s = .next t) : t.Inv := by
  obtain ⟨_, hcfg, _, _⟩ := onlyBindAndBuildWriteTheBindingRegisters i s t hx
  rcases exec_mem hx with hmem | ⟨hfit, hwrites⟩
  · exact ⟨hmem ▸ h.memWf, by rw [State.MemInArena, hmem, hcfg]; exact h.memInArena, h.binding.exec hx⟩
  · exact ⟨hwrites.memWf h.memWf, hwrites.memInArena h.memInArena hcfg hfit, h.binding.exec hx⟩

/-- The outcomes a step has from a good state: a good state, or the stop for a host write outside the arena (log
entry 7). -/
def GoodOutcome (o : Host.Outcome State Fault Refusal) : Prop :=
  (∃ t, o = .next t ∧ t.Inv) ∨ o = .fault .hostWriteOutsideArena

/-- A host write inside the arena keeps the invariant. -/
theorem State.Inv.hostWrite {s : State} (h : s.Inv) (hs : List HostAction) {a : Nat} (b : Byte)
    (ha : a < s.cfg.arenaSize.val) : ((s.setHost hs).setMem (s.mem.write a b)).Inv where
  memWf := Memory.write_wf _ _ h.memWf
  memInArena c hc := (Memory.mem_write hc).elim (fun he => he ▸ ha) (h.memInArena c)
  binding := h.binding

/-- Each action of the host keeps the invariant or is a write outside the arena. -/
theorem State.Inv.hostTurn {s : State} (h : s.Inv) : GoodOutcome (hostTurn s) := by
  cases hh : s.host with
  | nil => exact .inl ⟨s, hostTurn_of_nil hh, h⟩
  | cons x hs =>
    cases x with
    | present w => exact .inl ⟨_, hostTurn_of_present hh, h.memWf, h.memInArena, h.binding⟩
    | write a b =>
      rcases Nat.lt_or_ge a.toNat s.cfg.arenaSize.val with ha | ha
      · exact .inl ⟨_, hostTurn_of_write_inside hh ha, h.hostWrite hs b ha⟩
      · exact .inr (hostTurn_of_write_outside hh ha)
    | reset => exact .inl ⟨_, hostTurn_of_reset hh, h.memWf, h.memInArena, Nat.zero_le _⟩

/-- A step from a good state runs a command, which completes; takes an illegal word; or gives the host its turn. -/
theorem State.Inv.step {s : State} (h : s.Inv) : GoodOutcome (step s) := by
  cases hp : decode s.port with
  | command i rest =>
    have hport : (s.setPort rest).Inv := ⟨h.memWf, h.memInArena, h.binding⟩
    obtain ⟨t, ht⟩ := hport.binding.exec_completes i
    exact .inl ⟨t, (stepRunsTheDecodedCommand s i rest hp).trans ht, hport.exec ht⟩
  | illegal rest => exact .inl ⟨_, step_of_illegal hp, h.memWf, h.memInArena, h.binding⟩
  | incomplete =>
    rw [step_of_incomplete hp]
    exact h.hostTurn

/-- Settles O53: of the two outcomes of a step from a good state, the one that is a state. -/
theorem everyStepKeepsTheInvariant : Obligations.EveryStepKeepsTheInvariant := by
  intro s t h ht
  rcases h.step with ⟨u, hu, hinv⟩ | hstop
  · cases ht.symm.trans hu
    exact hinv
  · cases ht.symm.trans hstop

/-- Every run from a good state has one of the two outcomes of its steps. -/
theorem State.Inv.runSteps {s : State} (h : s.Inv) (k : Nat) : GoodOutcome (runSteps k s) := by
  induction k generalizing s with
  | zero => exact .inl ⟨s, rfl, h⟩
  | succ k ih =>
    rw [Machine.runSteps]
    rcases h.step with ⟨t, ht, hinv⟩ | hstop
    · rw [ht]
      exact ih hinv
    · rw [hstop]
      exact .inr rfl

/-- Settles O54: neither outcome of a run is the stop of log entry 6 or a refusal. -/
theorem noRunReachesAWindowOutsideTheArena : Obligations.NoRunReachesAWindowOutsideTheArena := by
  intro k s h
  rcases h.runSteps k with ⟨t, ht, _⟩ | hstop
  · rw [ht]
    exact ⟨nofun, nofun⟩
  · rw [hstop]
    exact ⟨nofun, nofun⟩

end Sys2Proof.Machine
end

section
/-!
PROOFS. Commands presented word by word (30_encoding.md R60) and executed in the order issued (20_memory.md R51).
-/

namespace Sys2Proof.Machine

/-- Go on from the next state, or stop as the outcome stops. -/
def andThen (o : Host.Outcome State Fault Refusal) (k : State → Host.Outcome State Fault Refusal) :
    Host.Outcome State Fault Refusal :=
  match o with
  | .next t => k t
  | .fault r => .fault r
  | .refused r => .refused r

@[simp] theorem andThen_next (t : State) (k : State → Host.Outcome State Fault Refusal) :
    andThen (.next t) k = k t := rfl
@[simp] theorem andThen_fault (r : Fault) (k : State → Host.Outcome State Fault Refusal) :
    andThen (.fault r) k = .fault r := rfl
@[simp] theorem andThen_refused (r : Refusal) (k : State → Host.Outcome State Fault Refusal) :
    andThen (.refused r) k = .refused r := rfl

theorem runSteps_succ (k : Nat) (s : State) : runSteps (k + 1) s = andThen (step s) (runSteps k) := rfl

theorem runSteps_one (s : State) : runSteps 1 s = step s := by
  rw [runSteps_succ]
  cases step s <;> rfl

theorem execAll_cons_eq_andThen (i : Instr) (is : List Instr) (s : State) :
    execAll (i :: is) s = andThen (exec i s) (execAll is) := rfl

/-- A run in two parts. -/
theorem runSteps_add (m n : Nat) (s : State) : runSteps (m + n) s = andThen (runSteps m s) (runSteps n) := by
  induction m generalizing s with
  | zero => rw [Nat.zero_add]; rfl
  | succ m ih =>
    rw [Nat.succ_add, runSteps_succ, runSteps_succ]
    cases step s with
    | next t => exact ih t
    | fault r => rfl
    | refused r => rfl

/-- Words that complete no command before the last of them are presented one a step. -/
theorem runSteps_present {ws : List Word} {h : List HostAction} {s : State} (hh : s.host = ws.map .present ++ h)
    (hp : ∀ k < ws.length, decode (s.port ++ ws.take k) = .incomplete) :
    runSteps ws.length s = .next ((s.setHost h).setPort (s.port ++ ws)) := by
  induction ws generalizing s with
  | nil =>
    obtain rfl : s.host = h := hh
    rw [List.append_nil]
    rfl
  | cons w ws ih =>
    have hstep : step s = .next ((s.setHost (ws.map .present ++ h)).setPort (s.port ++ [w])) :=
      (step_of_incomplete (by simpa using hp 0 (by simp))).trans (hostTurn_of_present hh)
    rw [List.length_cons, runSteps_succ, hstep, andThen_next, ih rfl fun k hk => ?later]
    case later => simpa using hp (k + 1) (by simpa using hk)
    simp [State.setHost, State.setPort]

/-- The words of one command, presented on an empty port, stand there after that many steps. -/
theorem runSteps_present_encode {i : Instr} {h : List HostAction} {s : State} (hp : s.port = [])
    (hh : s.host = (encode i).map .present ++ h) :
    runSteps (encode i).length s = .next ((s.setHost h).setPort (encode i)) := by
  rw [runSteps_present hh fun k hk => by rw [hp, List.nil_append, decode_take_encode hk], hp, List.nil_append]

/-- Presented whole, a command is executed by the step after. -/
theorem runSteps_present_exec {i : Instr} {h : List HostAction} {s : State} (hp : s.port = [])
    (hh : s.host = (encode i).map .present ++ h) :
    runSteps ((encode i).length + 1) s = exec i (s.setHost h) := by
  have hport : ((s.setHost h).setPort (encode i)).setPort [] = s.setHost h := by
    simp [State.setHost, State.setPort, hp]
  rw [runSteps_add, runSteps_present_encode hp hh, andThen_next, runSteps_one,
    stepRunsTheDecodedCommand _ i [] (decode_encode i), ← hport]
  rfl

/-- Settles O46: some of a command's words are no whole command, and all of them are. -/
theorem aCommandRunsWhenAllItsWordsArePresented : Obligations.ACommandRunsWhenAllItsWordsArePresented :=
  ⟨fun _ _ s hk hp hh => theIdleBlockHoldsItsState s (hp ▸ decode_take_encode hk) hh,
    fun _ _ _ hp hh => ⟨runSteps_present_encode hp hh, runSteps_present_exec hp hh⟩⟩

/-- The outcome with the host's script replaced in its state. -/
def setHostAfter (h : List HostAction) (o : Host.Outcome State Fault Refusal) : Host.Outcome State Fault Refusal :=
  andThen o fun t => .next (t.setHost h)

/-- The window access tests `BASE`, `LEN` and the arena size only. -/
theorem State.setHost_onWindow (s t : State) (h : List HostAction) :
    (s.setHost h).onWindow (t.setHost h) = setHostAfter h (s.onWindow t) := by
  rw [State.onWindow, State.onWindow, apply_ite (setHostAfter h), apply_ite (setHostAfter h)]
  rfl

theorem setHostAfter_next_ite (h : List HostAction) (c : Bool) (t u : State) :
    setHostAfter h (.next (if c then t else u)) = .next (if c then t.setHost h else u.setHost h) := by
  cases c <;> rfl

theorem State.setHost_respond (s : State) (h : List HostAction) (r : Response) :
    (s.setHost h).respond r = (s.respond r).setHost h := rfl

theorem State.setHost_setBinding (s : State) (h : List HostAction) (base len : Word) :
    (s.setHost h).setBinding base len = (s.setBinding base len).setHost h := rfl

theorem State.setHost_zeroWindow (s : State) (h : List HostAction) :
    (s.setHost h).zeroWindow = s.zeroWindow.setHost h := by
  rw [State.zeroWindow, State.zeroWindow, State.setHost_mem, State.setHost_base]
  rfl

theorem State.setHost_putField (s : State) (h : List HostAction) (f : Field) (v : Word) :
    (s.setHost h).putField f v = (s.putField f v).setHost h := rfl

theorem State.setHost_buildHeader (s : State) (h : List HostAction) (o se mig pad pkey qpn ack psn : Word) :
    (s.setHost h).buildHeader o se mig pad pkey qpn ack psn =
      (s.buildHeader o se mig pad pkey qpn ack psn).setHost h := by
  simp only [State.buildHeader, State.setHost_zeroWindow, State.setHost_putField]

/-- No command reads the host's script (00_scope.md R19), so its effect is the same under another. -/
theorem exec_setHost (i : Instr) (s : State) (h : List HostAction) :
    exec i (s.setHost h) = setHostAfter h (exec i s) := by
  rcases exec_shape i with ⟨f, _, hx⟩ | ⟨f, v, _, hx⟩ | ⟨base, len, rfl⟩ |
    ⟨base, o, se, mig, pad, pkey, qpn, ack, psn, rfl⟩ | rfl | ⟨_, _, r, _, hx⟩
  · rw [hx, hx]
    exact s.setHost_onWindow (s.respond { d0 := s.getField f }) h
  · rw [hx, hx]
    exact s.setHost_onWindow ((s.putField f v).respond {}) h
  · exact (setHostAfter_next_ite h (s.fits base.toNat len.toNat) ((s.setBinding base len).respond {})
      (s.raise .badDescriptor)).symm
  · rw [exec, execBuild, State.setHost_setBinding, State.setHost_buildHeader, State.setHost_respond, exec, execBuild,
      setHostAfter_next_ite]
    rfl
  · exact (setHostAfter_next_ite h s.windowOk (s.respond s.payload) (s.raise .shortWindow)).symm
  · rw [hx, hx]
    rfl

/-- Settles O47, by induction on the commands: each runs once its words stand on the port, under the script left. -/
theorem presentedCommandsRunInTheOrderIssued : Obligations.PresentedCommandsRunInTheOrderIssued := by
  intro is h
  induction is with
  | nil =>
    rintro s _ rfl
    rfl
  | cons i is ih =>
    intro s hp hh
    have hscript : s.host = (encode i).map .present ++ (presentAll is ++ h) := by
      rw [hh, presentAll, presentAll, List.flatMap_cons, List.map_append, List.append_assoc]
    have hsteps : stepsOf (i :: is) = (encode i).length + 1 + stepsOf is := by
      rw [stepsOf, stepsOf, List.map_cons, List.sum_cons]
    have hscripts : exec i (s.setHost h) = setHostAfter h (exec i (s.setHost (presentAll is ++ h))) :=
      exec_setHost i (s.setHost (presentAll is ++ h)) h
    show _ = execAll (i :: is) (s.setHost h)
    rw [hsteps, runSteps_add, runSteps_present_exec hp hscript, execAll_cons_eq_andThen, hscripts]
    cases ht : exec i (s.setHost (presentAll is ++ h)) with
    | next t =>
      obtain ⟨_, _, hport, hhost⟩ := onlyBindAndBuildWriteTheBindingRegisters i _ t ht
      exact ih t (hport.trans hp) hhost
    | fault r => rfl
    | refused r => rfl

end Sys2Proof.Machine
end

section
/-!
PROOFS. SETs one after another (42_set.md R127), and the reserved bits of the window (43_clear_reserved.md section 3).
-/

namespace Sys2Proof.Machine

/-- Of two SETs of one field the last decides the bytes. -/
theorem State.Bound.set_set {s : State} (hs : s.Bound) {p : Instr × (Word → Instr) × Nat} {f : Field}
    (hrow : RowOf p f) (a b : Word) : ∃ t u t', exec (p.2.1 a) s = .next t ∧ exec (p.2.1 b) t = .next u ∧
      exec (p.2.1 b) s = .next t' ∧ u.SameBytes t' := by
  obtain ⟨t, ht, hbound, hagree⟩ := hs.exec_agrees (.refl s) (hrow.set a)
  obtain ⟨u, hu, -, hboth⟩ := hbound.exec_agrees hagree (hrow.set b)
  obtain ⟨t', ht', -, hlast⟩ := hs.exec_agrees (.refl s) (hrow.set b)
  exact ⟨t, u, t', ht, hu, ht', ((hboth.trans (s.putField_putField_same f a b)).trans hlast.symm).bytes⟩

/-- Settles O15: two SETs of one field, the second with the same operand or another; and commands on different fields. -/
theorem setsAreIdempotentAndCommute : Obligations.SetsAreIdempotentAndCommute := by
  refine ⟨fun p hp a b s hs => ?last, fun p hp a s hs => ?twice, fun j k p q hp hq hjk a b => ?sets,
    fun p hp c hc a => ?clear⟩
  case last =>
    obtain ⟨f, hrow⟩ := exists_rowOf_of_mem hp
    exact hs.set_set hrow a b
  case twice =>
    obtain ⟨f, hrow⟩ := exists_rowOf_of_mem hp
    obtain ⟨t, u, t', ht, hu, ht', hbytes⟩ := hs.set_set hrow a a
    cases ht.symm.trans ht'
    exact ⟨t, u, ht, hu, hbytes⟩
  case sets =>
    obtain ⟨f, g, hne, hrow, hrow'⟩ := exists_rowOf_pair hp hq hjk
    exact bytesCommute_of_writeField (hrow.set a) (hrow'.set b) hne
  case clear =>
    obtain ⟨f, g, hne, hrow, hx⟩ := exists_rowOf_and_clearedField hp hc
    exact bytesCommute_of_writeField (hrow.set a) hx hne.symm

/-- R26: an access of the window that is no CLR is a GET, or the SET of an unreserved field. -/
theorem exec_of_accessesWindow_of_not_clear {i : Instr} (ha : accessesWindow i = true) (hc : i ∉ clearCommands) :
    (∃ f, ∀ s, exec i s = readField f s) ∨
    ∃ f v, (∀ s, exec i s = writeField f v s) ∧ f.reserved = false := by
  cases i
  case getOpcode | getSe | getMig | getPad | getTver | getPkey | getFecn | getBecn | getQpn | getAck | getPsn =>
    exact .inl ⟨_, fun _ => rfl⟩
  case setOpcode | setSe | setMig | setPad | setTver | setPkey | setFecn | setBecn | setQpn | setAck | setPsn =>
    exact .inr ⟨_, _, fun _ => rfl, rfl⟩
  case clrResv6a | clrResv7 => exact absurd (by decide) hc
  all_goals cases ha

/-- Writing an unreserved field leaves the reserved bits of window bytes 4 and 8 (43_clear_reserved.md section 3). -/
theorem State.reserved_putField (s : State) {f : Field} (v : Word) (hf : f.reserved = false) :
    (s.putField f v).headerByte 4 &&& 0x3F = s.headerByte 4 &&& 0x3F ∧
      (s.putField f v).headerByte 8 &&& 0x7F = s.headerByte 8 &&& 0x7F := by
  have hne (g : Field) (hg : g.reserved = true) : f ≠ g := by
    rintro rfl
    exact Bool.false_ne_true (hf.symm.trans hg)
  exact ⟨s.headerByte_and_putField_other (g := .resv6a) v (by decide) (by decide) (hne _ rfl),
    s.headerByte_and_putField_other (g := .resv7) v (by decide) (by decide) (hne _ rfl)⟩

/-- Settles O19: a GET and what is no access leave memory alone, and a SET writes an unreserved field. -/
theorem onlyBuildAndClearChangeAReservedBit : Obligations.OnlyBuildAndClearChangeAReservedBit := by
  intro i s t hc hbuild h
  have hsame (hmem : t.mem = s.mem) : t.mem.read (s.base.toNat + 4) &&& 0x3F = s.headerByte 4 &&& 0x3F ∧
      t.mem.read (s.base.toNat + 8) &&& 0x7F = s.headerByte 8 &&& 0x7F := by
    rw [hmem]
    exact ⟨rfl, rfl⟩
  cases ha : accessesWindow i with
  | false => exact hsame (exec_mem_of_not_accessesWindow h ha hbuild)
  | true =>
    rcases exec_of_accessesWindow_of_not_clear ha hc with ⟨f, hx⟩ | ⟨f, v, hx, hf⟩
    · obtain ⟨r, rfl, _⟩ := readField_next ((hx s).symm.trans h)
      exact hsame rfl
    · rcases writeField_next ((hx s).symm.trans h) with rfl | ⟨_, _, rfl⟩
      · exact hsame rfl
      · exact s.reserved_putField v hf

end Sys2Proof.Machine
end

section
/-!
PROOFS. The header BUILD makes in closed form (40_construct.md section 3): each container of the window after the eight
field writes on twelve zero bytes.
-/

namespace Sys2Proof.Machine

/-- BUILD at a region that fits the arena: the header is made in the window just bound (40_construct.md R83). -/
theorem exec_build_eq_buildHeader {base o se mig pad pkey qpn ack psn : Word} {s : State}
    (h : base.toNat + 12 ≤ s.cfg.arenaSize.val) :
    exec (.build base o se mig pad pkey qpn ack psn) s = .next
      (((s.setBinding base (BitVec.ofNat 32 hdrSize)).buildHeader o se mig pad pkey qpn ack psn).respond {}) := by
  rw [exec, execBuild, if_pos ((s.fits_iff ..).mpr h)]

/-- Writing a field too changes memory only. -/
theorem State.putField_eq_setMem {s t : State} (h : t = s.setMem t.mem) (f : Field) (v : Word) :
    t.putField f v = s.setMem (t.putField f v).mem := by
  have hmem (m : Memory) : t.setMem m = s.setMem m := by
    rw [h]
    rfl
  exact hmem _

/-- Making the header changes memory only. -/
theorem State.buildHeader_eq_setMem (s : State) (o se mig pad pkey qpn ack psn : Word) :
    s.buildHeader o se mig pad pkey qpn ack psn = s.setMem (s.buildHeader o se mig pad pkey qpn ack psn).mem := by
  unfold State.buildHeader
  iterate 8 refine State.putField_eq_setMem ?_ _ _
  rw [State.zeroWindow, State.setMem_mem]

/-- A binding, a change of memory and a response, field by field. -/
theorem State.respond_eq_of_eq_setMem_setBinding {s t : State} {base len : Word}
    (h : t = (s.setBinding base len).setMem t.mem) (r : Response) : t.respond r =
      { s with base := base, len := len, mem := (t.respond r).mem, responses := s.responses ++ [r] } :=
  calc t.respond r
    _ = ((s.setBinding base len).setMem t.mem).respond r := by rw [← h]
    _ = { s with base := base, len := len, mem := (t.respond r).mem, responses := s.responses ++ [r] } := rfl

/-- A response stores nothing. -/
theorem State.Stored.respond {s t : State} {a : Nat} {bs : List Byte} (h : s.Stored t a bs) (r : Response) :
    s.Stored (t.respond r) a bs := h

/-- A change inside the window stores the twelve window bytes. -/
theorem State.WritesWindow.stored {s t : State} (h : s.WritesWindow t) :
    s.Stored t t.base.toNat ((List.range 12).map t.headerByte) := by
  refine ⟨fun k b hb => ?_, fun x hx => h.frame x (by simpa using hx)⟩
  obtain ⟨_, rfl⟩ := List.getElem?_eq_some_iff.mp hb
  rw [List.getElem_map, List.getElem_range, State.headerByte]

/-- The window is the containers of five of its fields, one after another (10_state.md R24). -/
theorem State.map_headerByte_range_twelve (s : State) : (List.range 12).map s.headerByte =
    s.containerBytes .opcode ++ s.containerBytes .pad ++ s.containerBytes .pkey ++ s.containerBytes .qpn ++
      s.containerBytes .psn := rfl

/-- A container apart from that of the field written stays. -/
theorem State.containerBytes_putField_other (s : State) {f g : Field} (v : Word)
    (h : g.off + g.size ≤ f.off ∨ f.off + f.size ≤ g.off) :
    (s.putField f v).containerBytes g = s.containerBytes g := by
  refine List.map_congr_left fun k hk => s.headerByte_putField_other f v ?_
  rw [List.mem_range] at hk
  omega

theorem State.headerByte_zeroWindow (s : State) {k : Nat} (hk : k < 12) : s.zeroWindow.headerByte k = 0 := by
  rw [State.headerByte, State.zeroWindow_mem, State.zeroWindow_base, hdrSize_eq, Memory.read_zero, if_pos (by omega)]

/-- OpCode is all of its 1-byte container (42_set.md R113). -/
theorem State.containerBytes_putField_opcode (s : State) (v : Word) :
    (s.putField .opcode v).containerBytes .opcode = [v.extractLsb 7 0] :=
  congrArg (fun b => [b]) (s.headerByte_putField_whole v (k := 0) (lo := 0) (by decide) rfl)

/-- The runs of SolicitedEvent, MigrationState and PadCount in byte 1 lie apart, so no mask cuts another's bits. -/
theorem masked_runs_of_byte_one : ∀ (x y : BitVec 1) (z : BitVec 2),
    ((((0 &&& 0x7F#8) ||| (x.setWidth 8 <<< 7)) &&& 0xBF#8 ||| (y.setWidth 8 <<< 6)) &&& 0xCF#8) |||
      (z.setWidth 8 <<< 4) =
    (x.setWidth 8 <<< 7) ||| (y.setWidth 8 <<< 6) ||| (z.setWidth 8 <<< 4) := by decide

/-- Three of the four fields of byte 1 written on a zero byte (42_set.md R114 to R116). -/
theorem State.containerBytes_putField_se_mig_pad (s : State) (h : s.headerByte 1 = 0) (se mig pad : Word) :
    (((s.putField .se se).putField .mig mig).putField .pad pad).containerBytes .pad =
      [((se.extractLsb 0 0).setWidth 8 <<< 7) ||| ((mig.extractLsb 0 0).setWidth 8 <<< 6) |||
        ((pad.extractLsb 1 0).setWidth 8 <<< 4)] := by
  rw [State.containerBytes_putField_run _ (lo := 4) (hi := 1) (m := 0xCF) pad ⟨rfl, rfl, rfl⟩ (by decide),
    show Field.off .pad = 1 from rfl,
    State.headerByte_putField_run _ (k := 1) (lo := 6) (hi := 0) (m := 0xBF) mig ⟨rfl, rfl, rfl⟩ (by decide),
    State.headerByte_putField_run _ (k := 1) (lo := 7) (hi := 0) (m := 0x7F) se ⟨rfl, rfl, rfl⟩ (by decide), h]
  exact congrArg (fun b => [b]) (masked_runs_of_byte_one _ _ _)

/-- QueuePairNumber written where the byte before it is zero (42_set.md R121). -/
theorem State.containerBytes_putField_qpn (s : State) (h : s.headerByte 4 = 0) (v : Word) :
    (s.putField .qpn v).containerBytes .qpn = [0, v.extractLsb 23 16, v.extractLsb 15 8, v.extractLsb 7 0] := by
  rw [s.containerBytes_putField_low24 v ⟨rfl, rfl, rfl⟩, ← h]
  rfl

/-- AckRequest written on a zero byte, and PacketSequenceNumber after it (42_set.md R122, R123). -/
theorem State.containerBytes_putField_ack_psn (s : State) (h : s.headerByte 8 = 0) (ack psn : Word) :
    ((s.putField .ack ack).putField .psn psn).containerBytes .psn =
      [(ack.extractLsb 0 0).setWidth 8 <<< 7, psn.extractLsb 23 16, psn.extractLsb 15 8, psn.extractLsb 7 0] := by
  rw [State.containerBytes_putField_low24 _ psn ⟨rfl, rfl, rfl⟩, show Field.off .psn = 8 from rfl,
    State.headerByte_putField_run _ (k := 8) (lo := 7) (hi := 0) (m := 0x7F) ack ⟨rfl, rfl, rfl⟩ (by decide), h,
    show (0 : Byte) &&& 0x7F = 0#8 by decide, BitVec.zero_or]

/-- The twelve bytes of the header BUILD makes: each container sees the writes of its own fields, on zero bytes. -/
theorem State.map_headerByte_buildHeader (s : State) (o se mig pad pkey qpn ack psn : Word) :
    (List.range 12).map (s.buildHeader o se mig pad pkey qpn ack psn).headerByte =
      [o.extractLsb 7 0,
        ((se.extractLsb 0 0).setWidth 8 <<< 7) ||| ((mig.extractLsb 0 0).setWidth 8 <<< 6) |||
          ((pad.extractLsb 1 0).setWidth 8 <<< 4),
        pkey.extractLsb 15 8, pkey.extractLsb 7 0,
        0x00, qpn.extractLsb 23 16, qpn.extractLsb 15 8, qpn.extractLsb 7 0,
        (ack.extractLsb 0 0).setWidth 8 <<< 7, psn.extractLsb 23 16, psn.extractLsb 15 8, psn.extractLsb 7 0] := by
  have hzero1 : (s.zeroWindow.putField .opcode o).headerByte 1 = 0 := by
    simp (disch := decide) only [State.headerByte_putField_unheld, State.headerByte_zeroWindow]
  have hzero4 : (((((s.zeroWindow.putField .opcode o).putField .se se).putField .mig mig).putField .pad pad).putField
      .pkey pkey).headerByte 4 = 0 := by
    simp (disch := decide) only [State.headerByte_putField_unheld, State.headerByte_zeroWindow]
  have hzero8 : ((((((s.zeroWindow.putField .opcode o).putField .se se).putField .mig mig).putField .pad pad).putField
      .pkey pkey).putField .qpn qpn).headerByte 8 = 0 := by
    simp (disch := decide) only [State.headerByte_putField_unheld, State.headerByte_zeroWindow]
  rw [State.map_headerByte_range_twelve, State.buildHeader, State.containerBytes_putField_ack_psn _ hzero8]
  simp (disch := decide) only [State.containerBytes_putField_other]
  rw [State.containerBytes_putField_opcode, State.containerBytes_putField_se_mig_pad _ hzero1,
    State.containerBytes_putField_pkey, State.containerBytes_putField_qpn _ hzero4]
  rfl

/-- Settles O24: the bytes of the header made, stored in the window just bound. -/
theorem buildWritesTheClosedFormOfTheHeader : Obligations.BuildWritesTheClosedFormOfTheHeader := by
  intro base o se mig pad pkey qpn ack psn s h
  have hmem := (s.setBinding base (BitVec.ofNat 32 hdrSize)).buildHeader_eq_setMem o se mig pad pkey qpn ack psn
  have hstored := ((s.setBinding base (BitVec.ofNat 32 hdrSize)).writesWindow_buildHeader o se mig pad pkey qpn ack
    psn).of_setBinding.stored
  rw [State.map_headerByte_buildHeader, State.buildHeader_base, State.setBinding_base] at hstored
  exact ⟨_, exec_build_eq_buildHeader h, State.respond_eq_of_eq_setMem_setBinding hmem {}, hstored.respond {}⟩

end Sys2Proof.Machine
end
